-- ==== Sys2Proof/Config.lean ====
section
/-!
DEFINITION. The configuration record of spec/00_scope.md R8: every parameter the source leaves open, one field each; the
constraints the spec gives about them (R8, 92_eei_decisions.md D1 to D13); and the peripheral's free answers
(20_memory.md R53). The decided values are `Sys2Proof.Machine.cfg` in Machine/Params.lean, and the machine of Machine/ is
written for every record.
-/

namespace Sys2Proof

/-- The five interrupt kinds, the fixed set of 43_irqgate.md R123. -/
inductive IrqKind where
  /-- error-warning -/
  | errorWarning
  /-- error-passive -/
  | errorPassive
  /-- bus-off -/
  | busOff
  /-- last-error-code -/
  | lastErrorCode
  /-- generic error -/
  | genericError
  deriving DecidableEq, Repr

/-- The parameters the document leaves open (R8), in the order of its table. `PRESC_MAX` is computed
(`Config.prescMax`). -/
structure Config where
  /-- `WORD_W`, the width of the packed timing word. -/
  wordW : Nat
  /-- `SJW_OFF`, `SJW_W`. -/
  sjwOff : Nat
  sjwW : Nat
  /-- `TS1_OFF`, `TS1_W`. -/
  ts1Off : Nat
  ts1W : Nat
  /-- `TS2_OFF`, `TS2_W`. -/
  ts2Off : Nat
  ts2W : Nat
  /-- `PRESC_OFF`, `PRESC_W`. -/
  prescOff : Nat
  prescW : Nat
  /-- `OPERAND_W`, the width of each of the four bit-timing operands. -/
  operandW : Nat
  /-- `FLAGS_W`, the width of the control-mode operand. -/
  flagsW : Nat
  /-- Bit positions of the three supported flags in `a_flags`. -/
  flagLoopback : Nat
  flagSilent : Nat
  flagOneshot : Nat
  /-- `MODE_W`, and the bit positions of the two sub-modes in `PCFG.MODE`; Normal is the all-zero value. -/
  modeW : Nat
  modeLoopback : Nat
  modeSilent : Nat
  /-- The two codes of `PCFG.ART`. -/
  artEnabled : BitVec 1
  artDisabled : BitVec 1
  /-- The codes of the filter fields `F_SCALE`, `F_MODE`, `F_QUEUE`, `F_BANK`, `F_ACTIVE`. -/
  filterScale32 : BitVec 1
  filterModeMask : BitVec 1
  filterQueuePrimary : BitVec 1
  filterBank : BitVec 4
  filterActive : BitVec 1
  /-- The `IEN` bit of each interrupt kind. -/
  ienErrorWarning : Nat
  ienErrorPassive : Nat
  ienBusOff : Nat
  ienLastErrorCode : Nat
  ienGenericError : Nat
  /-- The order in which the gate issues its five calls. -/
  irqOrder : List IrqKind
  /-- The result code numbers. -/
  resOk : BitVec 3
  resHardwareInitFailed : BitVec 3
  resFilterConfigFailed : BitVec 3
  resDeinitFailed : BitVec 3
  resNotConfigured : BitVec 3
  resUnsupportedMode : BitVec 3
  resConfigurationOutOfRange : BitVec 3
  /-- `OP_W`, and the command opcode numbers. -/
  opW : Nat
  opInit : Nat
  opOpenreq : Nat
  opOpen : Nat
  opClose : Nat
  opPoll : Nat
  /-- `COUNT_W`, the width of the pending-message count. -/
  countW : Nat
  /-- `Q_PRIMARY`, the id of the primary queue. -/
  qPrimary : Nat
  deriving DecidableEq, Repr

/-- `PRESC_MAX = 2^PRESC_W - 1` (R8). -/
def Config.prescMax (c : Config) : Nat := 2 ^ c.prescW - 1

/-- The width of a command, `op ++ a_presc ++ a_sjw ++ a_ts1 ++ a_ts2 ++ a_flags` (30_encoding.md R71). -/
abbrev Config.cmdW (c : Config) : Nat := c.opW + c.operandW + c.operandW + c.operandW + c.operandW + c.flagsW

/-- What the spec says of the timing layout: the fields stand in the order of the source, do not overlap, fit the word,
and each segment field holds its range (R8; 92_eei_decisions.md D1, D2). -/
abbrev Config.TimingOk (c : Config) : Prop :=
  c.prescOff + c.prescW ≤ c.ts2Off ∧ c.ts2Off + c.ts2W ≤ c.ts1Off ∧ c.ts1Off + c.ts1W ≤ c.sjwOff ∧
  c.sjwOff + c.sjwW ≤ c.wordW ∧ 4 ≤ 2 ^ c.sjwW ∧ 16 ≤ 2 ^ c.ts1W ∧ 8 ≤ 2 ^ c.ts2W

/-- What the spec says of the flag and mode positions: three independent flags in the flag word, two combinable sub-mode
bits in the mode word (R8; 92_eei_decisions.md D5, D6). -/
abbrev Config.FlagsOk (c : Config) : Prop :=
  c.flagLoopback < c.flagsW ∧ c.flagSilent < c.flagsW ∧ c.flagOneshot < c.flagsW ∧ c.flagLoopback ≠ c.flagSilent ∧
  c.flagLoopback ≠ c.flagOneshot ∧ c.flagSilent ≠ c.flagOneshot ∧
  c.modeLoopback < c.modeW ∧ c.modeSilent < c.modeW ∧ c.modeLoopback ≠ c.modeSilent

/-- What the spec says of the code numbers: `ART` is a boolean, the two sets of names are told apart by their codes, the
five commands fit `op`, the five kinds have five `IEN` bits and are each issued once (R8; D7, D9, D10, D11). -/
abbrev Config.CodesOk (c : Config) : Prop :=
  c.artEnabled ≠ c.artDisabled ∧
  [c.resOk, c.resHardwareInitFailed, c.resFilterConfigFailed, c.resDeinitFailed, c.resNotConfigured,
    c.resUnsupportedMode, c.resConfigurationOutOfRange].Nodup ∧
  [c.opInit, c.opOpenreq, c.opOpen, c.opClose, c.opPoll].Nodup ∧
  (∀ n ∈ [c.opInit, c.opOpenreq, c.opOpen, c.opClose, c.opPoll], n < 2 ^ c.opW) ∧
  [c.ienErrorWarning, c.ienErrorPassive, c.ienBusOff, c.ienLastErrorCode, c.ienGenericError].Perm (List.range 5) ∧
  c.irqOrder.Perm [.errorWarning, .errorPassive, .busOff, .lastErrorCode, .genericError]

/-- The answer of a peripheral call that returns a `Result` (20_memory.md R50: "an answer is one of two values"). -/
inductive PResult where
  | ok
  | fail
  deriving DecidableEq, Repr, Inhabited

/-- FREE VALUE: the n-th `Ok`/`Fail` answer drawn when no scripted answer is left (R53: "each `Ok`/`Fail` and each depth
is a draw"; log 2). It has no body: no proof can see what it is. -/
opaque Config.freeResult : Nat → PResult

/-- FREE VALUE: the n-th depth drawn when no scripted depth is left (R53, 44_lifecycle.md R140; log 2). -/
opaque Config.freeDepth (c : Config) : Nat → BitVec c.countW

end Sys2Proof
end

