-- ==== Sys2Proof/Machine/Params.lean ====
section
/-!
DEFINITION. The decided values of the parameters of spec/00_scope.md R8 and the fixed values of R7.
-/

namespace Sys2Proof.Machine

/-- The decided values (R8; 92_eei_decisions.md D1 to D13), the default of everything that takes a record. -/
@[reducible] def cfg : Config where
  wordW := 32
  sjwOff := 24
  sjwW := 2
  ts1Off := 20
  ts1W := 4
  ts2Off := 16
  ts2W := 3
  prescOff := 0
  prescW := 10
  operandW := 32
  flagsW := 32
  flagLoopback := 0
  flagSilent := 1
  flagOneshot := 3
  modeW := 2
  modeLoopback := 0
  modeSilent := 1
  artEnabled := 1
  artDisabled := 0
  filterScale32 := 1
  filterModeMask := 0
  filterQueuePrimary := 0
  filterBank := 0
  filterActive := 1
  ienErrorWarning := 0
  ienErrorPassive := 1
  ienBusOff := 2
  ienLastErrorCode := 3
  ienGenericError := 4
  irqOrder := [.errorWarning, .errorPassive, .busOff, .lastErrorCode, .genericError]
  resOk := 0
  resHardwareInitFailed := 1
  resFilterConfigFailed := 2
  resDeinitFailed := 3
  resNotConfigured := 4
  resUnsupportedMode := 5
  resConfigurationOutOfRange := 6
  opW := 3
  opInit := 0
  opOpenreq := 1
  opOpen := 2
  opClose := 3
  opPoll := 4
  countW := 32
  qPrimary := 0

/-- `SJW_MIN`, `SJW_MAX` (R7): "syncJumpWidth: 1–4 quanta". -/
def sjwMin : Nat := 1
def sjwMax : Nat := 4
/-- `TS1_MIN`, `TS1_MAX` (R7): "timeSeg1: 1–16 quanta". -/
def ts1Min : Nat := 1
def ts1Max : Nat := 16
/-- `TS2_MIN`, `TS2_MAX` (R7): "timeSeg2: 1–8 quanta". -/
def ts2Min : Nat := 1
def ts2Max : Nat := 8
/-- `PRESC_MIN` (R7): "prescaler: unsigned integer ≥1". -/
def prescMin : Nat := 1

end Sys2Proof.Machine
end

