-- ==== Sys2Proof/Word.lean ====
section
/-!
DEFINITION. The bit-vector types of the values the spec treats as bits (spec/00_scope.md R8, R9), at the widths of the
decided record: widths only, no behaviour. Bit 0 is the least significant bit of each.
-/

namespace Sys2Proof

/-- One byte of a command carried over a byte-wide path (20_memory.md R55). -/
abbrev Byte := BitVec 8

/-- A packed timing word: `WORD_W` bits (00_scope.md R8, D1). -/
abbrev Word := BitVec Machine.cfg.wordW

/-- The control-mode operand `a_flags`: `FLAGS_W` bits (30_encoding.md R75, D4). -/
abbrev Flags := BitVec Machine.cfg.flagsW

/-- The operating mode: `MODE_W` bits (10_state.md R26, D6). -/
abbrev Mode := BitVec Machine.cfg.modeW

/-- The pending-message count: `COUNT_W` bits (10_state.md R31, D12). -/
abbrev Count := BitVec Machine.cfg.countW

/-- The interrupt-enable outputs, one bit per kind of the fixed set of five (10_state.md R29). -/
abbrev IrqMask := BitVec 5

/-- A receive-queue id; the spec names one, `Q_PRIMARY` (20_memory.md R59, D13). -/
abbrev QueueId := Nat

/-- The 163-bit command tuple `op ++ a_presc ++ a_sjw ++ a_ts1 ++ a_ts2 ++ a_flags` (30_encoding.md R71). -/
abbrev Cmd := BitVec Machine.cfg.cmdW

end Sys2Proof
end

