-- ==== Sys2Proof/Syntax.lean ====
section
/-!
DEFINITION. The instruction set of CANDRV as data: one constructor of `Instr` per row of spec/opcode_table.json.
-/

namespace Sys2Proof

/-- A BitTiming record: four natural numbers, counts of quanta (40_bittiming.md R90, 30_encoding.md R74). -/
structure BitTiming where
  presc : Nat
  sjw : Nat
  ts1 : Nat
  ts2 : Nat
  deriving DecidableEq, Repr

/-- The instructions. The timing operands are natural numbers ("each read as a natural number", R74), the flags a bit
mask (R75). The five commands and the three reserved codes have an encoding; the eight unit operations have none and are
invoked only from inside the commands (R73). -/
inductive Instr where
  /-- `init()`, op 0 (44_lifecycle.md R133). -/
  | init
  /-- `openRequest(bitTiming, controlModeFlags)`, op 1 (R134). -/
  | openreq (presc sjw ts1 ts2 : Nat) (flags : Flags)
  /-- `open()`, op 2 (R136). -/
  | openCmd
  /-- `close()`, op 3 (R138). -/
  | close
  /-- `pendingMessageCount()`, op 4 (R140). -/
  | poll
  /-- Reserved command code 5: names no command (30_encoding.md R78). -/
  | reserved5
  /-- Reserved command code 6 (R78). -/
  | reserved6
  /-- Reserved command code 7 (R78). -/
  | reserved7
  /-- VALIDATE, unit operation (40_bittiming.md R92). -/
  | validate (presc sjw ts1 ts2 : Nat)
  /-- PACK, unit operation (R93). -/
  | pack (presc sjw ts1 ts2 : Nat)
  /-- UNPACK, unit operation (R95). -/
  | unpack (w : Word)
  /-- DECODE, unit operation (41_ctrlmode.md R106). -/
  | decode (flags : Flags)
  /-- BUILDFILTER, unit operation (42_filter.md R116). -/
  | buildFilter
  /-- IRQ_ENABLE, unit operation (43_irqgate.md R124). -/
  | irqEnable
  /-- IRQ_DISABLE, unit operation (R125). -/
  | irqDisable
  /-- TEARDOWN, sequence shared by INIT and OPEN (44_lifecycle.md R139). -/
  | teardown
  deriving DecidableEq, Repr

/-- The rows of the table with format `UNIT`: no encoding, not invocable by the caller (R73). -/
def Instr.isUnit : Instr → Bool
  | .init => false
  | .openreq _ _ _ _ _ => false
  | .openCmd => false
  | .close => false
  | .poll => false
  | .reserved5 => false
  | .reserved6 => false
  | .reserved7 => false
  | .validate _ _ _ _ => true
  | .pack _ _ _ _ => true
  | .unpack _ => true
  | .decode _ => true
  | .buildFilter => true
  | .irqEnable => true
  | .irqDisable => true
  | .teardown => true

end Sys2Proof
end

