-- ==== Sys2Proof/WellFormed.lean ====
section
/-!
DEFINITION. Well-formed instructions: every timing operand fits the unsigned port operand it is read from
(spec/30_encoding.md R74). Ranges that the block itself checks (VALIDATE) are no part of this: out-of-range numbers are
representable on the port on purpose.
-/

namespace Sys2Proof

/-- A number an operand of `OPERAND_W` = 32 bits can carry (R74: "0 to `2^32 - 1`"). -/
def fitsOperand (n : Nat) : Bool := n < 2 ^ Machine.cfg.operandW

/-- The well-formedness check of one instruction. -/
def Instr.wf : Instr → Bool
  | .init => true
  | .openreq p s a b _ => fitsOperand p && fitsOperand s && fitsOperand a && fitsOperand b
  | .openCmd => true
  | .close => true
  | .poll => true
  | .reserved5 => true
  | .reserved6 => true
  | .reserved7 => true
  | .validate p s a b => fitsOperand p && fitsOperand s && fitsOperand a && fitsOperand b
  | .pack p s a b => fitsOperand p && fitsOperand s && fitsOperand a && fitsOperand b
  | .unpack _ => true
  | .decode _ => true
  | .buildFilter => true
  | .irqEnable => true
  | .irqDisable => true
  | .teardown => true

end Sys2Proof
end

