-- ==== Sys2Proof/Decode.lean ====
section
/-!
DEFINITION. The decoder of 163-bit command words and of their little-endian bytes, and the encoder
(spec/30_encoding.md R71 to R78, opcode_table.json).
-/

namespace Sys2Proof

/-! ### The command word, for every record (R71) -/

/-- `op`, the top `OP_W` bits: bits 162:160 at the decided record. -/
def cmdOpWith (c : Config) (w : BitVec c.cmdW) : BitVec c.opW :=
  w.extractLsb' (c.operandW + c.operandW + c.operandW + c.operandW + c.flagsW) c.opW
/-- `a_presc`, bits 159:128. -/
def cmdPrescWith (c : Config) (w : BitVec c.cmdW) : BitVec c.operandW :=
  w.extractLsb' (c.operandW + c.operandW + c.operandW + c.flagsW) c.operandW
/-- `a_sjw`, bits 127:96. -/
def cmdSjwWith (c : Config) (w : BitVec c.cmdW) : BitVec c.operandW :=
  w.extractLsb' (c.operandW + c.operandW + c.flagsW) c.operandW
/-- `a_ts1`, bits 95:64. -/
def cmdTs1With (c : Config) (w : BitVec c.cmdW) : BitVec c.operandW :=
  w.extractLsb' (c.operandW + c.flagsW) c.operandW
/-- `a_ts2`, bits 63:32. -/
def cmdTs2With (c : Config) (w : BitVec c.cmdW) : BitVec c.operandW := w.extractLsb' c.flagsW c.operandW
/-- `a_flags`, bits 31:0. -/
def cmdFlagsWith (c : Config) (w : BitVec c.cmdW) : BitVec c.flagsW := w.extractLsb' 0 c.flagsW

/-- `CMD = op ++ a_presc ++ a_sjw ++ a_ts1 ++ a_ts2 ++ a_flags` (R71). -/
def assembleWith (c : Config) (op : BitVec c.opW) (presc sjw ts1 ts2 : BitVec c.operandW) (flags : BitVec c.flagsW) :
    BitVec c.cmdW := op ++ presc ++ sjw ++ ts1 ++ ts2 ++ flags

/-- What a command code names: one of the five commands, or nothing (R72, R78). -/
inductive Command where
  | init
  | openreq
  | openCmd
  | close
  | poll
  | reserved (code : Nat)
  deriving DecidableEq, Repr

/-- The command codes (R72). -/
def commandOf (c : Config) (code : Nat) : Command :=
  if code = c.opInit then .init
  else if code = c.opOpenreq then .openreq
  else if code = c.opOpen then .openCmd
  else if code = c.opClose then .close
  else if code = c.opPoll then .poll
  else .reserved code

/-! ### The decoder and the encoder, at the decided record -/

/-- `op`, bits 162:160 of a command word (R71). -/
def cmdOp (w : Cmd) : BitVec 3 := cmdOpWith Machine.cfg w
/-- `a_presc`, bits 159:128. -/
def cmdPresc (w : Cmd) : BitVec 32 := cmdPrescWith Machine.cfg w
/-- `a_sjw`, bits 127:96. -/
def cmdSjw (w : Cmd) : BitVec 32 := cmdSjwWith Machine.cfg w
/-- `a_ts1`, bits 95:64. -/
def cmdTs1 (w : Cmd) : BitVec 32 := cmdTs1With Machine.cfg w
/-- `a_ts2`, bits 63:32. -/
def cmdTs2 (w : Cmd) : BitVec 32 := cmdTs2With Machine.cfg w
/-- `a_flags`, bits 31:0. -/
def cmdFlags (w : Cmd) : Flags := cmdFlagsWith Machine.cfg w

/-- Decodes one command word by its `op` (R72). Format `N` reads nothing but `op`; format `Q` reads all six fields. The
three reserved codes come out under names of their own, the model's form of R78's "invalid": they are mapped onto no
command (log 6). The last arm is `op` = 7, the only value a 3-bit field has left. -/
def decode (w : Cmd) : Instr :=
  match commandOf Machine.cfg (cmdOp w).toNat with
  | .init => .init
  | .openreq => .openreq (cmdPresc w).toNat (cmdSjw w).toNat (cmdTs1 w).toNat (cmdTs2 w).toNat (cmdFlags w)
  | .openCmd => .openCmd
  | .close => .close
  | .poll => .poll
  | .reserved code => if code = 5 then .reserved5 else if code = 6 then .reserved6 else .reserved7

/-- The word of six fields at the decided record (R71). -/
def assemble (op : BitVec 3) (presc sjw ts1 ts2 : BitVec 32) (flags : Flags) : Cmd :=
  assembleWith Machine.cfg op presc sjw ts1 ts2 flags

/-- A format-`N` word: the ignored bits 159:0 are written 0 (log 9). -/
def assembleN (op : BitVec 3) : Cmd := assemble op 0 0 0 0 0

/-- The `op` field that holds a command code. -/
def opField (code : Nat) : BitVec 3 := BitVec.ofNat 3 code

/-- The word of an instruction; none for a unit operation, which has no encoding (R73). -/
def encode : Instr → Option Cmd
  | .init => some (assembleN (opField Machine.cfg.opInit))
  | .openreq p s a b f => some (assemble (opField Machine.cfg.opOpenreq)
      (BitVec.ofNat 32 p) (BitVec.ofNat 32 s) (BitVec.ofNat 32 a) (BitVec.ofNat 32 b) f)
  | .openCmd => some (assembleN (opField Machine.cfg.opOpen))
  | .close => some (assembleN (opField Machine.cfg.opClose))
  | .poll => some (assembleN (opField Machine.cfg.opPoll))
  | .reserved5 => some (assembleN 5)
  | .reserved6 => some (assembleN 6)
  | .reserved7 => some (assembleN 7)
  | .validate _ _ _ _ => none
  | .pack _ _ _ _ => none
  | .unpack _ => none
  | .decode _ => none
  | .buildFilter => none
  | .irqEnable => none
  | .irqDisable => none
  | .teardown => none

/-- Why a byte string is no command. -/
inductive DecodeError where
  /-- Fewer than the 21 bytes a 163-bit command takes. -/
  | truncated
  /-- One of the five bits above bit 162 in the last byte is set: the word is wider than a command. -/
  | tooWide
  deriving DecidableEq, Repr

/-- A number read from bytes, the least significant byte first (20_memory.md R55, D14). -/
def natOfBytes : List Byte → Nat
  | [] => 0
  | b :: bs => b.toNat + 256 * natOfBytes bs

/-- The n low bytes of a number, the least significant first. -/
def bytesOfNat : Nat → Nat → List Byte
  | 0, _ => []
  | n + 1, w => BitVec.ofNat 8 w :: bytesOfNat n (w / 256)

/-- How many bytes carry one command: 21, of which the top five bits are padding (log 8). -/
def cmdBytes : Nat := 21

/-- Decodes the command at the head of a byte string and gives the bytes after it; total on any bytes (log 8). -/
def decodeBytes (bs : List Byte) : Except DecodeError (Instr × List Byte) :=
  if bs.length < cmdBytes then .error .truncated
  else
    let n := natOfBytes (bs.take cmdBytes)
    if n < 2 ^ 163 then .ok (decode (BitVec.ofNat 163 n), bs.drop cmdBytes) else .error .tooWide

/-- The bytes of an instruction that has an encoding. -/
def encodeBytes (i : Instr) : Option (List Byte) := (encode i).map (fun w => bytesOfNat cmdBytes w.toNat)

/-- The instruction the decoder reads from a word numbered as spec/opcode_table.json numbers it; `nbits` bits of `w`
count, all bits above are 0. A row that the table gives no bits (the unit operations) has no word. -/
def decodeTableWord (nbits w : Nat) : Option Instr :=
  let n := w % 2 ^ nbits
  if nbits = 0 ∨ 2 ^ (8 * cmdBytes) ≤ n then none
  else
    match decodeBytes (bytesOfNat cmdBytes n) with
    | .ok (i, _) => some i
    | .error _ => none

end Sys2Proof
end

