-- ==== Sys2Proof/Machine/State.lean ====
section
/-!
DEFINITION. The state of the machine as plain data (spec/10_state.md R20 to R39), the peripheral's events
(20_memory.md R50, R51), the reasons a step can stop, and the state after reset (70_reset_and_hazards.md R171).
-/

namespace Sys2Proof.Machine

/-- `STATE` (10_state.md R23): "InterfaceState: enum {Disabled, Open}". -/
inductive InterfaceState where
  | disabled
  | opened
  deriving DecidableEq, Repr

/-- The result of a command, register `RES` (R30, 60_exceptions.md R151): seven values, code 7 is never written. -/
inductive Result where
  /-- 0 -/
  | ok
  /-- 1: `P_INIT` or `P_START` answered `Fail` in OPEN. -/
  | hardwareInitFailed
  /-- 2: `P_CFGFILTER` answered `Fail` in OPEN. -/
  | filterConfigFailed
  /-- 3: `P_DEINIT` answered `Fail` in CLOSE. -/
  | deinitFailed
  /-- 4: OPEN with nothing staged. -/
  | notConfigured
  /-- 5: OPENREQ with a flag bit outside `SUPPORTED_MASK`. -/
  | unsupportedMode
  /-- 6: OPENREQ with a timing operand outside its range. -/
  | configurationOutOfRange
  deriving DecidableEq, Repr

/-- A receive filter, the record `PCFG.FILTER` (R28). -/
structure Filter where
  /-- `F_ID`: the identifier pattern. -/
  id : BitVec 32
  /-- `F_MASK`: 1 = the bit must match. -/
  mask : BitVec 32
  /-- `F_SCALE`: 1 = one 32-bit filter. -/
  scale : BitVec 1
  /-- `F_MODE`: 0 = mask-based. -/
  mode : BitVec 1
  /-- `F_QUEUE`: 0 = primary queue. -/
  queue : BitVec 1
  /-- `F_BANK`: the bank number. -/
  bank : BitVec 4
  /-- `F_ACTIVE`: 1 = active. -/
  active : BitVec 1
  deriving DecidableEq, Repr

/-- The staged configuration: the four `PCFG` registers (R25 to R28). -/
structure PendingConfig (c : Config := cfg) where
  /-- `PCFG.TIMING`, `WORD_W` bits. -/
  timing : BitVec c.wordW
  /-- `PCFG.MODE`, `MODE_W` bits: at the decided record bit 1 Silent, bit 0 Loopback. -/
  mode : BitVec c.modeW
  /-- `PCFG.ART`: true = automatic retransmission enabled; its code is `artBit`. -/
  art : Bool
  /-- `PCFG.FILTER`. -/
  filter : Filter
  deriving DecidableEq, Repr

/-- One event `(cmd, arg, answer)` of `PTRACE` (20_memory.md R50, R51): a peripheral call with its argument and, where
the call has one, its answer. -/
inductive Event (c : Config := cfg) where
  /-- `P_INIT` with the triple (`PCFG.MODE`, `PCFG.TIMING`, `PCFG.ART`) (R52). -/
  | init (mode : BitVec c.modeW) (timing : BitVec c.wordW) (art : Bool) (answer : PResult)
  /-- `P_DEINIT`. -/
  | deinit (answer : PResult)
  /-- `P_CFGFILTER` with the filter record. -/
  | cfgFilter (filter : Filter) (answer : PResult)
  /-- `P_START`. -/
  | start (answer : PResult)
  /-- `P_RXDEPTH` with a queue id; the answer is a depth. -/
  | rxDepth (queue : QueueId) (answer : BitVec c.countW)
  /-- `P_IRQ_EN`: no answer. -/
  | irqEn (kind : IrqKind)
  /-- `P_IRQ_DIS`: no answer. -/
  | irqDis (kind : IrqKind)
  deriving DecidableEq, Repr

/-- What DECODE returns (41_ctrlmode.md R106): the error value, or the pair `(mode, art)`. -/
inductive ModeResult (c : Config := cfg) where
  | unsupported
  | supported (mode : BitVec c.modeW) (art : Bool)
  deriving DecidableEq, Repr

/-- The value a unit operation returned when it was executed as an instruction of its own (the MODEL's own, log 4). -/
inductive UnitResult (c : Config := cfg) where
  /-- No unit operation has returned a value since reset. -/
  | nothing
  /-- VALIDATE. -/
  | valid (b : Bool)
  /-- PACK. -/
  | word (w : BitVec c.wordW)
  /-- UNPACK. -/
  | timing (t : BitTiming)
  /-- DECODE. -/
  | mode (m : ModeResult c)
  /-- BUILDFILTER. -/
  | filter (f : Filter)
  deriving DecidableEq, Repr

/-- The state of the machine, for a record of R8 (`State` alone is the state at the decided record). The first five fields
are the block's nine registers (R20): `pcfg` holds `STAGED` and the four `PCFG` registers at once (R39: absent while
`STAGED = 0`; log 1). The others are the history `PTRACE` (R34) and the MODEL's own fields: the caller's commands, the
peripheral's answers, the free-value counter and the unit-result latch (log 2, 3, 4, 7). -/
structure State (c : Config := cfg) where
  /-- `STATE`. -/
  state : InterfaceState
  /-- `STAGED` (is it some?) and `PCFG.TIMING`, `PCFG.MODE`, `PCFG.ART`, `PCFG.FILTER`. -/
  pcfg : Option (PendingConfig c)
  /-- `IEN`. -/
  ien : IrqMask
  /-- `RES`. -/
  res : Result
  /-- `COUNT`, `COUNT_W` bits. -/
  count : BitVec c.countW
  /-- `PTRACE`, oldest event first. -/
  ptrace : List (Event c)
  /-- The last value a unit operation returned on its own (model's own). -/
  unitOut : UnitResult c
  /-- The commands the caller has still to present, the one on the port first (model's own). -/
  port : List (BitVec c.cmdW)
  /-- The `Ok`/`Fail` answers the peripheral is to give, the next one first (model's own). -/
  answers : List PResult
  /-- The depths the peripheral is to give, the next one first (model's own). -/
  depths : List (BitVec c.countW)
  /-- How many free values have been drawn (model's own). -/
  draws : Nat
  deriving DecidableEq, Repr

/-- The register `STAGED`, 1 bit (R24): a configuration is staged. -/
def State.staged {c : Config} (s : State c) : Bool := s.pcfg.isSome

/-- Why the machine stops with a fault. -/
inductive Fault where
  /-- Raised by `execPack` on operands that fail VALIDATE: "PACK is not defined there (precondition)"
  (93_implementation_defined.md U2). Safe: the model stops where the spec gives no value (log 5). -/
  | packUndefined
  deriving DecidableEq, Repr

/-- Why the model gives an instruction no meaning. -/
inductive Refusal where
  /-- Raised by an arm of `exec` that has no meaning yet; no arm has it now. Safe. -/
  | notModelled (mnemonic : String)
  /-- Raised by the meanings of the reserved command codes 5, 6 and 7: "the step function refuses them"
  (30_encoding.md R78). Safe: the model stops where the block stays as it is (log 6). -/
  | reservedCommand (code : Nat)
  deriving DecidableEq, Repr

/-- The outcomes of this machine. -/
abbrev Out (c : Config := cfg) := Host.Outcome (State c) Fault Refusal

/-- The state right after hardware reset (70_reset_and_hazards.md R171, 10_state.md R39), for every record; the MODEL's own
fields at the values of logs 2, 4 and 7. -/
def State.resetWith (c : Config) : State c where
  state := .disabled
  pcfg := none
  ien := 0
  res := .ok
  count := 0
  ptrace := []
  unitOut := .nothing
  port := []
  answers := []
  depths := []
  draws := 0

/-- The state right after hardware reset, at the decided record. -/
def State.reset : State := State.resetWith cfg

end Sys2Proof.Machine
end

