-- ==== Sys2Proof/Machine/Operands.lean ====
section
/-!
DEFINITION. The operands of the command port as the units read them (spec/30_encoding.md R74, R75) and the port's outputs
(R70).
-/

namespace Sys2Proof.Machine

/-- The bit of `a_flags` at a position (R75). -/
def flagBit {n : Nat} (flags : BitVec n) (pos : Nat) : Bool := flags.getLsbD pos

/-- `SUPPORTED_MASK`: the three supported positions (R75); 0x0000000B at the decided record (a test). -/
def supportedMask (c : Config := cfg) : BitVec c.flagsW :=
  (1#c.flagsW <<< c.flagLoopback) ||| (1#c.flagsW <<< c.flagSilent) ||| (1#c.flagsW <<< c.flagOneshot)

/-- The named unsupported positions of R75: three-sample filtering, error reporting, CAN-FD, presume-ACK, non-ISO FD. The
block treats them like every other bit outside `SUPPORTED_MASK`. -/
def flag3Samples : Nat := 2
def flagBerr : Nat := 4
def flagFd : Nat := 5
def flagPresumeAck : Nat := 6
def flagFdNonIso : Nat := 7

/-- The port's output `cmd_valid` towards the block: the caller presents a command (R70). -/
def cmdValid {c : Config} (s : State c) : Bool := !s.port.isEmpty

/-- The port's output `cmd_ready`: a command is one transition (00_scope.md R13), so in every state between two steps the
block is idle and ready (R70, 70_reset_and_hazards.md R171, R179). -/
def cmdReady {c : Config} (_ : State c) : Bool := true

end Sys2Proof.Machine
end

