-- ==== Sys2Proof/Machine/Flags.lean ====
section
/-!
DEFINITION. The bit codes of the status registers: `STATE`, `RES`, `IEN` (spec/10_state.md R23, R29, R30;
60_exceptions.md R151) and the 72-bit view of the filter record (R28).
-/

namespace Sys2Proof.Machine

/-- The bit of `STATE` (R23). -/
def InterfaceState.bit : InterfaceState → BitVec 1
  | .disabled => 0
  | .opened => 1

/-- The code of a result in `RES` (R151). -/
def Result.code (r : Result) (c : Config := cfg) : BitVec 3 :=
  match r with
  | .ok => c.resOk
  | .hardwareInitFailed => c.resHardwareInitFailed
  | .filterConfigFailed => c.resFilterConfigFailed
  | .deinitFailed => c.resDeinitFailed
  | .notConfigured => c.resNotConfigured
  | .unsupportedMode => c.resUnsupportedMode
  | .configurationOutOfRange => c.resConfigurationOutOfRange

/-- The register `PCFG.ART` (R27). -/
def PendingConfig.artBit {c : Config} (p : PendingConfig c) : BitVec 1 := if p.art then c.artEnabled else c.artDisabled

/-- The `IEN` bit number of an interrupt kind (R29). -/
def irqBit (c : Config) : IrqKind → Nat
  | .errorWarning => c.ienErrorWarning
  | .errorPassive => c.ienErrorPassive
  | .busOff => c.ienBusOff
  | .lastErrorCode => c.ienLastErrorCode
  | .genericError => c.ienGenericError

/-- The fixed set of five kinds, in the order of the calls (43_irqgate.md R123, R124). -/
def irqKinds (c : Config := cfg) : List IrqKind := c.irqOrder

/-- `IEN = 0b11111`: all five enabled. -/
def irqAll : IrqMask := 0b11111

/-- `IEN = 0b00000`: all five disabled. -/
def irqNone : IrqMask := 0b00000

/-- The port's output `res` (30_encoding.md R70). -/
def resOut {c : Config} (s : State c) : BitVec 3 := s.res.code c

/-- The port's output `count`. -/
def countOut {c : Config} (s : State c) : BitVec c.countW := s.count

/-- The port's output `ien`, to the peripheral's interrupt mask. -/
def ienOut {c : Config} (s : State c) : IrqMask := s.ien

/-- The filter record as one 72-bit value, `F_ID ++ F_MASK ++ F_SCALE ++ F_MODE ++ F_QUEUE ++ F_BANK ++ F_ACTIVE`
(42_filter.md R116). -/
def Filter.bits (f : Filter) : BitVec 72 :=
  f.id ++ f.mask ++ f.scale ++ f.mode ++ f.queue ++ f.bank ++ f.active

end Sys2Proof.Machine
end

