-- ==== Sys2Proof/Machine/Ops.lean ====
section
/-!
DEFINITION. The named operations over the registers and the one primitive that touches anything outside the block, the
peripheral call (spec/00_scope.md R10 to R12, 20_memory.md R50 to R53). `raise` is the one shared way an error is taken;
there is no return from one (60_exceptions.md R153, R156).
-/

namespace Sys2Proof.Machine

variable {c : Config}

/-- `STATE <- v`. -/
def setState (v : InterfaceState) (s : State c) : State c := { s with state := v }
/-- Writes the four `PCFG` registers and sets `STAGED` (some), or clears `STAGED` and discards them (none). -/
def setPcfg (v : Option (PendingConfig c)) (s : State c) : State c := { s with pcfg := v }
/-- `IEN <- v`. -/
def setIen (v : IrqMask) (s : State c) : State c := { s with ien := v }
/-- `RES <- v`. -/
def setRes (v : Result) (s : State c) : State c := { s with res := v }
/-- `COUNT <- v`. -/
def setCount (v : BitVec c.countW) (s : State c) : State c := { s with count := v }
/-- Latches the value of a unit operation (log 4). -/
def setUnitOut (v : UnitResult c) (s : State c) : State c := { s with unitOut := v }
/-- Appends one event to `PTRACE` (R51). -/
def logEvent (e : Event c) (s : State c) : State c := { s with ptrace := s.ptrace ++ [e] }

/-- `raise E` (R12): `RES <- code(E)` and the command ends; every write made before stays. -/
def raise (e : Result) (s : State c) : Out c := .next (setRes e s)

/-- `return Ok` (R12): `RES <- 0` and the command ends. -/
def returnOk (s : State c) : Out c := .next (setRes .ok s)

/-- The k-th `Ok`/`Fail` answer the peripheral will give from here on (k = 0 the next one): a scripted one, or a free
value when the script is used up (R53, log 2). -/
def nthResult (s : State c) (k : Nat) : PResult :=
  match s.answers[k]? with
  | some r => r
  | none => Config.freeResult (s.draws + (k - s.answers.length))

/-- The state after k such answers have been given. -/
def dropResults (k : Nat) (s : State c) : State c :=
  { s with answers := s.answers.drop k, draws := s.draws + (k - s.answers.length) }

/-- The depth the peripheral will give next (R53, U12). -/
def nextDepth (s : State c) : BitVec c.countW :=
  match s.depths with
  | n :: _ => n
  | [] => c.freeDepth s.draws

/-- The state after that depth has been given. -/
def dropDepth (s : State c) : State c :=
  match s.depths with
  | _ :: ns => { s with depths := ns }
  | [] => { s with draws := s.draws + 1 }

/-- `PCall` of a command that answers `Ok` or `Fail` (R51): takes the answer, appends the event, yields the answer. -/
def callResult (e : PResult → Event c) (s : State c) : PResult × State c :=
  (nthResult s 0, logEvent (e (nthResult s 0)) (dropResults 1 s))

/-- `PCall(P_INIT, (PCFG.MODE, PCFG.TIMING, PCFG.ART))` (R52). -/
def pInit (p : PendingConfig c) (s : State c) : PResult × State c := callResult (.init p.mode p.timing p.art) s
/-- `PCall(P_DEINIT)`. -/
def pDeinit (s : State c) : PResult × State c := callResult .deinit s
/-- `PCall(P_CFGFILTER, PCFG.FILTER)`. -/
def pCfgFilter (f : Filter) (s : State c) : PResult × State c := callResult (.cfgFilter f) s
/-- `PCall(P_START)`. -/
def pStart (s : State c) : PResult × State c := callResult .start s
/-- `PCall(P_RXDEPTH, q)`: the answer is a depth. -/
def pRxDepth (q : QueueId) (s : State c) : BitVec c.countW × State c :=
  (nextDepth s, logEvent (.rxDepth q (nextDepth s)) (dropDepth s))
/-- `PCall(P_IRQ_EN, k)`: no answer, cannot fail (R53, 43_irqgate.md R127). -/
def pIrqEn (k : IrqKind) (s : State c) : State c := logEvent (.irqEn k) s
/-- `PCall(P_IRQ_DIS, k)`. -/
def pIrqDis (k : IrqKind) (s : State c) : State c := logEvent (.irqDis k) s

end Sys2Proof.Machine
end

