-- ==== Sys2Proof/Machine/CtrlMode.lean ====
section
/-!
DEFINITION. The mode-to-register decoder DECODE (spec/41_ctrlmode.md R105 to R109).
-/

namespace Sys2Proof.Machine

/-- DECODE (R106): any bit outside the supported mask gives the error value before any decoding
(R107); else the sub-mode bits are ORed into Normal and `art` is the negation of one-shot. -/
def decodeFlags {c : Config} (flags : BitVec c.flagsW) : ModeResult c :=
  if flags &&& ~~~(supportedMask c) ≠ 0 then .unsupported
  else
    let normal : BitVec c.modeW := 0
    let withSilent := if flagBit flags c.flagSilent then normal ||| (1#c.modeW <<< c.modeSilent) else normal
    let mode := if flagBit flags c.flagLoopback then withSilent ||| (1#c.modeW <<< c.modeLoopback) else withSilent
    .supported mode (!flagBit flags c.flagOneshot)

/-- DECODE as an instruction of its own: returns its value, writes no register. -/
def execDecode {c : Config} (flags : BitVec c.flagsW) (s : State c) : Out c :=
  .next (setUnitOut (.mode (decodeFlags flags)) s)

end Sys2Proof.Machine
end

