-- ==== Sys2Proof/Machine/FilterUnit.lean ====
section
/-!
DEFINITION. The filter configurator BUILDFILTER (spec/42_filter.md R115 to R118).
-/

namespace Sys2Proof.Machine

/-- BUILDFILTER (R116): the fixed pass-all filter of bank 0 on the primary queue, in the record's codes. -/
def buildFilter (c : Config := cfg) : Filter where
  id := 0
  mask := 0
  scale := c.filterScale32
  mode := c.filterModeMask
  queue := c.filterQueuePrimary
  bank := c.filterBank
  active := c.filterActive

/-- BUILDFILTER as an instruction of its own: returns the record, writes no register. -/
def execBuildFilter {c : Config} (s : State c) : Out c := .next (setUnitOut (.filter (buildFilter c)) s)

/-- Whether a mask-mode filter lets an identifier pass: a set mask bit must match, a clear one is not compared.
PRESUMED (R117 marks the comparison as general knowledge; log 14). No meaning uses it. -/
def Filter.passes (f : Filter) (identifier : BitVec 32) : Bool := (identifier ^^^ f.id) &&& f.mask = 0

end Sys2Proof.Machine
end

