-- ==== Sys2Proof/Machine/IrqGate.lean ====
section
/-!
DEFINITION. The interrupt gate: IRQ_ENABLE and IRQ_DISABLE (spec/43_irqgate.md R123 to R128).
-/

namespace Sys2Proof.Machine

variable {c : Config}

/-- IRQ_ENABLE (R124): the five `P_IRQ_EN` in order, then `IEN <- 0b11111`. -/
def irqEnable (s : State c) : State c := setIen irqAll ((irqKinds c).foldl (fun t k => pIrqEn k t) s)

/-- IRQ_DISABLE (R125): the five `P_IRQ_DIS` in order, whatever `IEN` is, then `IEN <- 0b00000`. -/
def irqDisable (s : State c) : State c := setIen irqNone ((irqKinds c).foldl (fun t k => pIrqDis k t) s)

/-- IRQ_ENABLE as an instruction of its own (log 10). -/
def execIrqEnable (s : State c) : Out c := .next (irqEnable s)

/-- IRQ_DISABLE as an instruction of its own (log 10). -/
def execIrqDisable (s : State c) : Out c := .next (irqDisable s)

end Sys2Proof.Machine
end

