-- ==== Sys2Proof/Machine/Timing.lean ====
section
/-!
DEFINITION. The bit-timing unit: VALIDATE, PACK, UNPACK (spec/40_bittiming.md). Every function takes the record of
00_scope.md R8.
-/

namespace Sys2Proof.Machine

/-- VALIDATE (R92): comparisons on the full operands, before any narrowing (R96 (6)). -/
def validate (t : BitTiming) (c : Config := cfg) : Bool :=
  prescMin ≤ t.presc && t.presc ≤ c.prescMax && sjwMin ≤ t.sjw && t.sjw ≤ sjwMax &&
  ts1Min ≤ t.ts1 && t.ts1 ≤ ts1Max && ts2Min ≤ t.ts2 && t.ts2 ≤ ts2Max

/-- A BitTiming that passes VALIDATE: PACK's precondition, carried as a proof (R93: "a subtype or a proof argument"). -/
abbrev ValidTiming (c : Config := cfg) := { t : BitTiming // validate t c = true }

/-- PACK's word (R93): the segments as value minus 1, the prescaler unchanged, each at its offset. It
means something only on operands that pass VALIDATE. -/
def packWith (c : Config) (t : BitTiming) : BitVec c.wordW :=
  (BitVec.ofNat c.wordW (t.sjw - 1) <<< c.sjwOff) ||| (BitVec.ofNat c.wordW (t.ts1 - 1) <<< c.ts1Off) |||
  (BitVec.ofNat c.wordW (t.ts2 - 1) <<< c.ts2Off) ||| (BitVec.ofNat c.wordW t.presc <<< c.prescOff)

/-- PACK (R93), defined on valid operands only. -/
def pack {c : Config} (t : ValidTiming c) : BitVec c.wordW := packWith c t.val

/-- UNPACK (R95): reads the four fields, ignores the reserved bits. -/
def unpack {c : Config} (w : BitVec c.wordW) : BitTiming where
  presc := (w.extractLsb' c.prescOff c.prescW).toNat
  sjw := (w.extractLsb' c.sjwOff c.sjwW).toNat + 1
  ts1 := (w.extractLsb' c.ts1Off c.ts1W).toNat + 1
  ts2 := (w.extractLsb' c.ts2Off c.ts2W).toNat + 1

/-- The bits of a field of `n` bits at an offset. -/
def fieldBits (c : Config) (off n : Nat) : BitVec c.wordW := BitVec.ofNat c.wordW (2 ^ n - 1) <<< off

/-- The reserved bits of `PCFG.TIMING`: every bit outside the four fields, 31:26, 19 and 15:10 at the decided
record (10_state.md R25). -/
def reservedTimingBits (c : Config := cfg) : BitVec c.wordW :=
  ~~~(fieldBits c c.sjwOff c.sjwW ||| fieldBits c c.ts1Off c.ts1W ||| fieldBits c c.ts2Off c.ts2W |||
      fieldBits c c.prescOff c.prescW)

/-- A well-formed timing word: reserved bits 0 and a prescaler field that is not 0 (R95). -/
def wellFormedWord {c : Config} (w : BitVec c.wordW) : Bool :=
  w &&& reservedTimingBits c = 0 && w.extractLsb' c.prescOff c.prescW ≠ 0

variable {c : Config}

/-- VALIDATE as an instruction of its own: returns the Bool, writes no register (R92). -/
def execValidate (presc sjw ts1 ts2 : Nat) (s : State c) : Out c :=
  .next (setUnitOut (.valid (validate ⟨presc, sjw, ts1, ts2⟩ c)) s)

/-- PACK as an instruction of its own (R93); undefined off its precondition (U2, log 5). -/
def execPack (presc sjw ts1 ts2 : Nat) (s : State c) : Out c :=
  if h : validate ⟨presc, sjw, ts1, ts2⟩ c = true then .next (setUnitOut (.word (pack ⟨_, h⟩)) s)
  else .fault .packUndefined

/-- UNPACK as an instruction of its own (R95). -/
def execUnpack (w : BitVec c.wordW) (s : State c) : Out c := .next (setUnitOut (.timing (unpack w)) s)

end Sys2Proof.Machine
end

