-- ==== Sys2Proof/Machine/Lifecycle.lean ====
section
/-!
DEFINITION. The lifecycle sequencer: TEARDOWN, INIT, OPENREQ, OPEN, CLOSE, POLL (spec/44_lifecycle.md).
-/

namespace Sys2Proof.Machine

variable {c : Config}

/-- TEARDOWN (R139): interrupts off, then `P_DEINIT` with its answer discarded, then `STATE <- 0`. -/
def teardown (s : State c) : State c := setState .disabled (pDeinit (irqDisable s)).2

/-- `if STATE = 1 then TEARDOWN()`, the line INIT and OPEN share (R133, R136 line 2). -/
def teardownIfOpen (s : State c) : State c :=
  match s.state with
  | .opened => teardown s
  | .disabled => s

/-- TEARDOWN as an instruction of its own (log 10). -/
def execTeardown (s : State c) : Out c := .next (teardown s)

/-- INIT (R133). -/
def execInit (s : State c) : Out c := returnOk (setPcfg none (setState .disabled (teardownIfOpen s)))

/-- OPENREQ (R134): both checks come before the first write, range before mode (D25). -/
def execOpenreq (presc sjw ts1 ts2 : Nat) (flags : BitVec c.flagsW) (s : State c) : Out c :=
  if h : validate ⟨presc, sjw, ts1, ts2⟩ c = true then
    match decodeFlags flags with
    | .unsupported => raise .unsupportedMode s
    | .supported mode art =>
      returnOk (setPcfg (some { timing := pack ⟨_, h⟩, mode := mode, art := art, filter := buildFilter c }) s)
  else raise .configurationOutOfRange s

/-- OPEN lines 6 and 8: the rollback `P_DEINIT`, its answer discarded, and the raise (R136, D22, D23). -/
def rollback (e : Result) (s : State c) : Out c := raise e (pDeinit s).2

/-- OPEN lines 7 to 11: start, enable the interrupts, mark enabled (R136). -/
def openStart (s : State c) : Out c :=
  match pStart s with
  | (.fail, s') => rollback .hardwareInitFailed s'
  | (.ok, s') => returnOk (setState .opened (irqEnable s'))

/-- OPEN lines 5 and 6: the filter step. -/
def openFilter (p : PendingConfig c) (s : State c) : Out c :=
  match pCfgFilter p.filter s with
  | (.fail, s') => rollback .filterConfigFailed s'
  | (.ok, s') => openStart s'

/-- OPEN lines 3 and 4: the hardware initialisation. No `P_DEINIT` follows a failed `P_INIT` (D30). -/
def openInit (p : PendingConfig c) (s : State c) : Out c :=
  match pInit p s with
  | (.fail, s') => raise .hardwareInitFailed s'
  | (.ok, s') => openFilter p s'

/-- OPEN (R136): the staged record is read and never written. -/
def execOpen (s : State c) : Out c :=
  match s.pcfg with
  | none => raise .notConfigured s
  | some p => openInit p (teardownIfOpen s)

/-- CLOSE after the interrupt bracket: from Open, `P_DEINIT`, `STATE <- 0` whatever it answers, then the raise (R138). -/
def closeFromOpen (s : State c) : Out c :=
  match pDeinit s with
  | (.fail, s') => raise .deinitFailed (setState .disabled s')
  | (.ok, s') => returnOk (setState .disabled s')

/-- CLOSE (R138): the interrupt bracket in every state; `P_DEINIT` only from Open. -/
def execClose (s : State c) : Out c :=
  match s.state with
  | .opened => closeFromOpen (irqDisable s)
  | .disabled => returnOk (irqDisable s)

/-- POLL (R140): 0 without a call in Disabled, else the depth of the primary queue, unchanged. -/
def execPoll (s : State c) : Out c :=
  match s.state with
  | .disabled => returnOk (setCount 0 s)
  | .opened => returnOk (setCount (pRxDepth c.qPrimary s).1 (pRxDepth c.qPrimary s).2)

end Sys2Proof.Machine
end

