-- ==== Sys2Proof/Machine/Reserved.lean ====
section
/-!
DEFINITION. The reserved command codes 5, 6, 7 (spec/30_encoding.md R78): not accepted; the step refuses them.
-/

namespace Sys2Proof.Machine

/-- What the block does with a reserved code: no register changes, no call, no event; "the step function refuses them"
(R78, D33; log 6). -/
def refuseReserved {c : Config} (code : Nat) (_ : State c) : Out c := .refused (.reservedCommand code)

/-- Command code 5. -/
def execReserved5 {c : Config} (s : State c) : Out c := refuseReserved 5 s
/-- Command code 6. -/
def execReserved6 {c : Config} (s : State c) : Out c := refuseReserved 6 s
/-- Command code 7. -/
def execReserved7 {c : Config} (s : State c) : Out c := refuseReserved 7 s

end Sys2Proof.Machine
end

