-- ==== Sys2Proof/Machine/Dispatch.lean ====
section
/-! DEFINITION. The dispatch: one arm per constructor of `Instr`, each one call of its meaning. -/

namespace Sys2Proof.Machine

def exec (i : Instr) (s : State) : Host.Outcome State Fault Refusal :=
  match i with
  | .init => Sys2Proof.Machine.execInit s
  | .openreq presc sjw ts1 ts2 flags => Sys2Proof.Machine.execOpenreq presc sjw ts1 ts2 flags s
  | .openCmd => Sys2Proof.Machine.execOpen s
  | .close => Sys2Proof.Machine.execClose s
  | .poll => Sys2Proof.Machine.execPoll s
  | .reserved5 => Sys2Proof.Machine.execReserved5 s
  | .reserved6 => Sys2Proof.Machine.execReserved6 s
  | .reserved7 => Sys2Proof.Machine.execReserved7 s
  | .validate presc sjw ts1 ts2 => Sys2Proof.Machine.execValidate presc sjw ts1 ts2 s
  | .pack presc sjw ts1 ts2 => Sys2Proof.Machine.execPack presc sjw ts1 ts2 s
  | .unpack w => Sys2Proof.Machine.execUnpack w s
  | .decode flags => Sys2Proof.Machine.execDecode flags s
  | .buildFilter => Sys2Proof.Machine.execBuildFilter s
  | .irqEnable => Sys2Proof.Machine.execIrqEnable s
  | .irqDisable => Sys2Proof.Machine.execIrqDisable s
  | .teardown => Sys2Proof.Machine.execTeardown s

end Sys2Proof.Machine
end

