-- ==== Sys2Proof/Machine/Step.lean ====
section
/-!
DEFINITION. One step of the machine: the block accepts the command on its port and runs it to completion
(spec/30_encoding.md R70, 00_scope.md R13).
-/

namespace Sys2Proof.Machine

/-- One step. With no command on the port the idle block stays as it is; else the command is taken from the port (its
operands are "not kept after it", 10_state.md R21), decoded and executed as one transition. -/
def step (s : State) : Host.Outcome State Fault Refusal :=
  match s.port with
  | [] => .next s
  | w :: rest => exec (decode w) { s with port := rest }

/-- The caller presents the command whose word is the low `nbits` bits of `w` next (log 7). DESIGN CHOICE (log 8): the
port carries the 163 bits of R71 and no more, so a bit of `w` above bit 162 is dropped here and the low 163 bits are
presented, where `decodeBytes` and `decodeTableWord` reject such a word as too wide; with `nbits` 0, which has no word in
`decodeTableWord`, the word 0 is presented. -/
def State.withFetchWord (s : State) (nbits w : Nat) : State :=
  { s with port := BitVec.ofNat cfg.cmdW (w % 2 ^ nbits) :: s.port }

end Sys2Proof.Machine
end

