-- ==== Sys2Proof/Machine/Block.lean ====
section
/-!
DEFINITION. The block for every record of spec/00_scope.md R8: one step that reads the command by the record's own widths and
code numbers. `Sys2Proof.Machine.step` is this step at the decided record (the statement StepIsTheBlockAtTheDecidedRecord).
-/

namespace Sys2Proof.Machine

/-- Runs the command whose word is on the port (30_encoding.md R72), for a record. -/
def accept {c : Config} (w : BitVec c.cmdW) (s : State c) : Out c :=
  match commandOf c (cmdOpWith c w).toNat with
  | .init => execInit s
  | .openreq => execOpenreq (cmdPrescWith c w).toNat (cmdSjwWith c w).toNat (cmdTs1With c w).toNat
      (cmdTs2With c w).toNat (cmdFlagsWith c w) s
  | .openCmd => execOpen s
  | .close => execClose s
  | .poll => execPoll s
  | .reserved code => refuseReserved code s

/-- One step of the block (R70), for a record: with no command on the port it stays as it is. -/
def stepWith {c : Config} (s : State c) : Out c :=
  match s.port with
  | [] => .next s
  | w :: rest => accept w { s with port := rest }

end Sys2Proof.Machine
end

