-- ==== Sys2Proof/Safety.lean ====
section
/-!
DEFINITION. What counts as a good state and a good trace: the invariants of spec/10_state.md R36 to R38, the mask that a
trace has asked for (R29), and the order of peripheral calls that 44_lifecycle.md R143 describes, as a monitor that reads a
trace from its start (log 15).
-/

namespace Sys2Proof.Machine

variable {c : Config}

/-- Interrupt invariant (R36): all five enabled exactly when the interface is open. -/
abbrev IrqInv (s : State c) : Prop := s.ien = if s.state = .opened then irqAll else irqNone

/-- Staging invariant (R37). -/
abbrev StagingInv (s : State c) : Prop := s.state = .opened → s.staged = true

/-- Well-formedness invariant (R38): what is staged was packed by PACK and built by BUILDFILTER. -/
abbrev StagedWfInv (s : State c) : Prop :=
  ∀ p ∈ s.pcfg, wellFormedWord p.timing = true ∧ p.filter = buildFilter c

/-- The enables that an event asks for, on top of those asked for before. -/
def maskStep (m : IrqMask) : Event c → IrqMask
  | .irqEn k => m ||| (1#5 <<< irqBit c k)
  | .irqDis k => m &&& ~~~(1#5 <<< irqBit c k)
  | .init _ _ _ _ => m
  | .deinit _ => m
  | .cfgFilter _ _ => m
  | .start _ => m
  | .rxDepth _ _ => m

/-- The interrupt mask a trace has asked for: per kind, was its last call `P_IRQ_EN`? (R29) -/
def traceMask (tr : List (Event c)) : IrqMask := tr.foldl maskStep irqNone

/-- `IEN` is what the block has last asked for of every kind (R29). -/
abbrev MaskInv (s : State c) : Prop := s.ien = traceMask s.ptrace

/-- The calls R160 (b) names: no interrupt of the five may be enabled when one of them is made. -/
def Event.isHardwareStep {c : Config} : Event c → Bool
  | .init _ _ _ _ => true
  | .deinit _ => true
  | .cfgFilter _ _ => true
  | .start _ => true
  | .rxDepth _ _ => false
  | .irqEn _ => false
  | .irqDis _ => false

/-- A `P_INIT` event. -/
def Event.isInit {c : Config} : Event c → Bool
  | .init _ _ _ _ => true
  | .deinit _ => false
  | .cfgFilter _ _ => false
  | .start _ => false
  | .rxDepth _ _ => false
  | .irqEn _ => false
  | .irqDis _ => false

/-- A `P_DEINIT` event. -/
def Event.isDeinit {c : Config} : Event c → Bool
  | .init _ _ _ _ => false
  | .deinit _ => true
  | .cfgFilter _ _ => false
  | .start _ => false
  | .rxDepth _ _ => false
  | .irqEn _ => false
  | .irqDis _ => false

/-- A `P_RXDEPTH` event. -/
def Event.isRxDepth {c : Config} : Event c → Bool
  | .init _ _ _ _ => false
  | .deinit _ => false
  | .cfgFilter _ _ => false
  | .start _ => false
  | .rxDepth _ _ => true
  | .irqEn _ => false
  | .irqDis _ => false

/-- A `P_IRQ_EN` event. -/
def Event.isIrqEn {c : Config} : Event c → Bool
  | .init _ _ _ _ => false
  | .deinit _ => false
  | .cfgFilter _ _ => false
  | .start _ => false
  | .rxDepth _ _ => false
  | .irqEn _ => true
  | .irqDis _ => false

/-- Where the monitor stands in a trace. -/
inductive Phase where
  /-- Nothing initialised that still has to be deinitialised. -/
  | down
  /-- `P_INIT` just answered `Ok`. -/
  | inited
  /-- `P_CFGFILTER` just answered `Ok`. -/
  | filtered
  /-- A step after `P_INIT` answered `Fail`: the rollback `P_DEINIT` must follow. -/
  | rollingBack
  /-- `P_START` answered `Ok`; the kinds listed are still to be enabled. -/
  | enabling (left : List IrqKind)
  /-- Open, all five enabled. -/
  | up
  /-- A teardown has begun; the kinds listed are still to be disabled, then `P_DEINIT` must follow. -/
  | disabling (left : List IrqKind)
  deriving DecidableEq, Repr

/-- Where the monitor goes on an event; none where the event may not stand there. -/
def Phase.next (p : Phase) : Event c → Option Phase
  | .init _ _ _ r => if p = .down then some (if r = .ok then .inited else .down) else none
  | .cfgFilter _ r => if p = .inited then some (if r = .ok then .filtered else .rollingBack) else none
  | .start r => if p = .filtered then some (if r = .ok then .enabling (irqKinds c) else .rollingBack) else none
  | .deinit _ => if p = .rollingBack ∨ p = .disabling [] then some .down else none
  | .rxDepth _ _ => if p = .up then some .up else none
  | .irqEn k =>
    match p with
    | .enabling (k' :: ks) => if k = k' then some (if ks = [] then .up else .enabling ks) else none
    | _ => none
  | .irqDis k =>
    match p with
    | .down => some .down
    | .up => if (irqKinds c).head? = some k then some (.disabling (irqKinds c).tail) else none
    | .disabling (k' :: ks) => if k = k' then some (.disabling ks) else none
    | _ => none

/-- Reads a trace from a phase. -/
def Phase.run : Phase → List (Event c) → Option Phase
  | p, [] => some p
  | p, e :: es => (p.next e).bind (fun q => q.run es)

/-- The whole trace is one the monitor allows, and it ends where `STATE` says. -/
abbrev ProtocolInv (s : State c) : Prop :=
  Phase.run .down s.ptrace = some (if s.state = .opened then .up else .down)

/-- A good state: what holds after reset and after every command. -/
abbrev Inv (s : State c) : Prop := IrqInv s ∧ StagingInv s ∧ StagedWfInv s ∧ MaskInv s ∧ ProtocolInv s

/-- The commands whose results R151 lists: which results a command may leave in `RES`. A unit operation writes no `RES`,
a reserved code ends in no state. -/
def mayRaise : Instr → List Result
  | .init => [.ok]
  | .openreq _ _ _ _ _ => [.ok, .configurationOutOfRange, .unsupportedMode]
  | .openCmd => [.ok, .notConfigured, .hardwareInitFailed, .filterConfigFailed]
  | .close => [.ok, .deinitFailed]
  | .poll => [.ok]
  | .reserved5 => []
  | .reserved6 => []
  | .reserved7 => []
  | .validate _ _ _ _ => []
  | .pack _ _ _ _ => []
  | .unpack _ => []
  | .decode _ => []
  | .buildFilter => []
  | .irqEnable => []
  | .irqDisable => []
  | .teardown => []

end Sys2Proof.Machine
end

