-- ==== Sys2Proof/Certificates/Slice0/Obligations.lean ====
section
/-!
DEFINITION. The statements for the provers: what the spec's numbered rules say of resets, encodings, every instruction,
the order of peripheral calls, and the invariants. Stated only; nothing is proved here.
-/

open Sys2Proof Sys2Proof.Machine

/-- R171 (the spec's decision D27): what hardware reset leaves. `PCFG` has no value: it is absent (R39, log 1). No call
has been made, the block is idle and ready. -/
def Obligations.ResetRegisterValues : Prop :=
  State.reset.state = .disabled ∧ State.reset.staged = false ∧ State.reset.pcfg = none ∧ ienOut State.reset = 0b00000 ∧
  resOut State.reset = 0 ∧ countOut State.reset = 0 ∧ State.reset.ptrace = [] ∧ cmdReady State.reset = true

/-- From R174: INIT after a hardware reset is redundant, OPEN before any OPENREQ reports NotConfigured. -/
def Obligations.InitAfterResetIsRedundant : Prop :=
  exec .init State.reset = .next State.reset ∧
  exec .openCmd State.reset = .next { State.reset with res := .notConfigured }

/-- From R71 and R72 (the spec's decision D11): the six fields stand in the word in this order, `op` names the command,
OPENREQ reads all fields. That the codes 5, 6 and 7, for which R78 says "invalid", come out as three named
instructions is the MODEL's choice (log 6). -/
def Obligations.CommandWordIsReadByItsFields : Prop :=
  ∀ (op : BitVec 3) (p s a b f : BitVec 32),
    let w : Cmd := op ++ p ++ s ++ a ++ b ++ f
    (op = 0b000 → decode w = .init) ∧
    (op = 0b001 → decode w = .openreq p.toNat s.toNat a.toNat b.toNat f) ∧
    (op = 0b010 → decode w = .openCmd) ∧
    (op = 0b011 → decode w = .close) ∧
    (op = 0b100 → decode w = .poll) ∧
    (op = 0b101 → decode w = .reserved5) ∧
    (op = 0b110 → decode w = .reserved6) ∧
    (op = 0b111 → decode w = .reserved7)

/-- From R71 and R81: outside OPENREQ the bits 159:0 change nothing of what a step does. -/
def Obligations.IgnoredBitsChangeNothing : Prop :=
  ∀ (s : State) (w w' : Cmd) (rest : List Cmd),
    w.extractLsb' 160 3 = w'.extractLsb' 160 3 → w.extractLsb' 160 3 ≠ 1 →
    step { s with port := w :: rest } = step { s with port := w' :: rest }

/-- Decoding inverts encoding for every well-formed instruction that has a word. -/
def Obligations.DecodeInvertsEncode : Prop :=
  ∀ (i : Instr) (w : Cmd), i.wf = true → encode i = some w → decode w = i

/-- Every word decodes to a well-formed instruction that has a word again; for OPENREQ it is the same word, bit for bit,
and for the others it agrees in `op`. -/
def Obligations.EncodeInvertsDecode : Prop :=
  ∀ w : Cmd, (decode w).wf = true ∧
    ∃ w', encode (decode w) = some w' ∧ w'.extractLsb' 160 3 = w.extractLsb' 160 3 ∧
      (w.extractLsb' 160 3 = 1 → w' = w)

/-- From R73: a unit operation has no word and no word decodes to one, so the caller cannot invoke it. -/
def Obligations.UnitOperationsHaveNoEncoding : Prop :=
  ∀ i : Instr, i.isUnit = true → encode i = none ∧ ∀ w : Cmd, decode w ≠ i

/-- The byte form of a command round-trips and leaves the bytes after it. The byte form is the MODEL's choice (log 8). -/
def Obligations.CommandBytesRoundTrip : Prop :=
  ∀ (i : Instr) (bs rest : List Byte), i.wf = true → encodeBytes i = some bs →
    decodeBytes (bs ++ rest) = .ok (i, rest)

/-- Words written out from R71 and R72 decode to the commands they stand for. -/
def Obligations.WrittenOutWordsDecode : Prop :=
  decode 0x0_00000000_00000000_00000000_00000000_00000000#163 = .init ∧
  decode 0x1_00000003_00000001_0000000a_00000003_00000008#163 = .openreq 3 1 10 3 0x8 ∧
  decode 0x2_deadbeef_00000001_00000002_00000003_ffffffff#163 = .openCmd ∧
  decode 0x3_00000000_00000000_00000000_00000000_00000000#163 = .close ∧
  decode 0x4_00000000_00000000_00000000_00000000_00000000#163 = .poll

/-- R78: a word whose `op` is 5, 6 or 7 is mapped onto no command and the step refuses it by name: there is no next state,
so no register changes and there is no event; the idle block is still ready. Refusing is what R78 asks of a model
(decision D33, log 6). -/
def Obligations.ReservedCodesAreRefused : Prop :=
  (∀ (s : State) (w : Cmd) (rest : List Cmd) (op : BitVec 3), w.extractLsb' 160 3 = op → 5 ≤ op →
    step { s with port := w :: rest } = .refused (.reservedCommand op.toNat)) ∧
  (∀ s : State, exec .reserved5 s = .refused (.reservedCommand 5) ∧ exec .reserved6 s = .refused (.reservedCommand 6) ∧
    exec .reserved7 s = .refused (.reservedCommand 7) ∧ cmdReady s = true)

/-- A step takes the command on the port, and runs it on the state without it; the idle block stays as it is (log 7). -/
def Obligations.StepRunsTheDecodedCommand : Prop :=
  (∀ (s : State) (w : Cmd) (rest : List Cmd), s.port = w :: rest → step s = exec (decode w) { s with port := rest }) ∧
  (∀ (s : State) (i : Instr) (w : Cmd) (rest : List Cmd), i.wf = true → encode i = some w → s.port = w :: rest →
    step s = exec i { s with port := rest }) ∧
  (∀ s : State, s.port = [] → step s = .next s)

/-- From R92: VALIDATE compares the four natural numbers with their ranges, on every operand; it writes no register (1023
is the spec's decision D3). The value is seen in the MODEL's latch `unitOut` (log 4), and the unit runs on its own as
log 10 says. -/
def Obligations.ValidateAnswersTheRanges : Prop :=
  ∀ (p j a b : Nat) (s : State),
    let v : Bool := decide ((1 ≤ p ∧ p ≤ 1023) ∧ (1 ≤ j ∧ j ≤ 4) ∧ (1 ≤ a ∧ a ≤ 16) ∧ (1 ≤ b ∧ b ≤ 8))
    exec (.validate p j a b) s = .next { s with unitOut := .valid v }

/-- From R93: on operands that pass VALIDATE, PACK answers the word whose four fields are these and whose other bits are
0; it writes no register (the offsets are the spec's decision D2). The value is seen in the MODEL's latch `unitOut`
(log 4), and the unit runs on its own as log 10 says. -/
def Obligations.PackPlacesTheFields : Prop :=
  ∀ (p j a b : Nat) (s : State), validate ⟨p, j, a, b⟩ = true →
    ∃ w : Word, exec (.pack p j a b) s = .next { s with unitOut := .word w } ∧
      (w.extractLsb' 24 2).toNat = j - 1 ∧ (w.extractLsb' 20 4).toNat = a - 1 ∧ (w.extractLsb' 16 3).toNat = b - 1 ∧
      (w.extractLsb' 0 10).toNat = p ∧ w &&& 0xFC08FC00 = 0 ∧
      w.toNat = (j - 1) * 2 ^ 24 + (a - 1) * 2 ^ 20 + (b - 1) * 2 ^ 16 + p

/-- From R93 and U2: off its precondition PACK is not defined, and the MODEL stops there (log 5). -/
def Obligations.PackStopsOffItsPrecondition : Prop :=
  ∀ (p j a b : Nat) (s : State),
    ¬((1 ≤ p ∧ p ≤ 1023) ∧ (1 ≤ j ∧ j ≤ 4) ∧ (1 ≤ a ∧ a ≤ 16) ∧ (1 ≤ b ∧ b ≤ 8)) →
    exec (.pack p j a b) s = .fault .packUndefined

/-- From R95: UNPACK reads the four fields and ignores the reserved bits; what it reads from a well-formed word passes
VALIDATE. The value is seen in the MODEL's latch `unitOut` (log 4), and the unit runs on its own as log 10 says. -/
def Obligations.UnpackReadsTheFields : Prop :=
  ∀ (w : Word) (s : State),
    (let t : BitTiming :=
      ⟨(w.extractLsb' 0 10).toNat, (w.extractLsb' 24 2).toNat + 1, (w.extractLsb' 20 4).toNat + 1,
       (w.extractLsb' 16 3).toNat + 1⟩
     exec (.unpack w) s = .next { s with unitOut := .timing t }) ∧
    unpack (w &&& 0x03F703FF) = unpack w ∧
    (w &&& 0xFC08FC00 = 0 → w.extractLsb' 0 10 ≠ 0 → validate (unpack w) = true)

/-- From R97 (its (b) and (c) are marked derived there): the round trip (a), its converse on well-formed words (b), and
the bijection between the 523776 valid inputs and the well-formed words (c). -/
def Obligations.PackIsALosslessBijection : Prop :=
  (∀ t : ValidTiming, unpack (pack t) = t.val) ∧
  (∀ (w : Word), wellFormedWord w = true → ∃ h : validate (unpack w) = true, pack ⟨unpack w, h⟩ = w) ∧
  (∀ t : ValidTiming, wellFormedWord (pack t) = true) ∧
  (∀ t u : ValidTiming, pack t = pack u → t = u) ∧
  Nat.card ValidTiming = 523776

/-- From R97 and D2: "the round-trip law holds for every layout meeting the constraints". -/
def Obligations.EveryAllowedLayoutRoundTrips : Prop :=
  ∀ (c : Config) (t : BitTiming), c.TimingOk → validate t c = true → unpack (packWith c t) = t

/-- From R106: DECODE of every flag word, as the error value or the pair; it writes no register. The value is seen in the
MODEL's latch `unitOut` (log 4), and the unit runs on its own as log 10 says. -/
def Obligations.DecodeAnswersModeAndRetransmission : Prop :=
  ∀ (f : Flags) (s : State),
    let d : ModeResult := if f &&& ~~~0x0000000B ≠ 0 then .unsupported
      else .supported (f.extractLsb' 1 1 ++ f.extractLsb' 0 1) (!f.getLsbD 3)
    exec (.decode f) s = .next { s with unitOut := .mode d }

/-- R107: any bit other than 0, 1 and 3 makes DECODE answer the error, and nothing else does. -/
def Obligations.AnyOtherFlagIsUnsupported : Prop :=
  ∀ f : Flags, decodeFlags f = .unsupported ↔
    ∃ k, k < 32 ∧ k ≠ 0 ∧ k ≠ 1 ∧ k ≠ 3 ∧ f.getLsbD k = true

/-- From R108 (marked derived there): the eight rows of the table, and the three flags read back from the decoded pair. -/
def Obligations.DecodeTableIsOneToOne : Prop :=
  (∀ row ∈ ([(0x0, 0b00, true), (0x1, 0b01, true), (0x2, 0b10, true), (0x3, 0b11, true), (0x8, 0b00, false),
      (0x9, 0b01, false), (0xA, 0b10, false), (0xB, 0b11, false)] : List (Flags × Mode × Bool)),
    decodeFlags row.1 = .supported row.2.1 row.2.2) ∧
  ∀ (f : Flags) (m : Mode) (art : Bool), decodeFlags f = .supported m art →
    f.getLsbD 1 = m.getLsbD 1 ∧ f.getLsbD 0 = m.getLsbD 0 ∧ f.getLsbD 3 = !art ∧
    f = m.setWidth 32 ||| (if art then 0 else 8)

/-- From R109: inverting one-shot inverts `art` only; inverting loopback or silent inverts that mode bit only. -/
def Obligations.ModeAndRetransmissionAreIndependent : Prop :=
  ∀ (f : Flags) (m : Mode) (art : Bool), decodeFlags f = .supported m art →
    decodeFlags (f ^^^ 8) = .supported m (!art) ∧ decodeFlags (f ^^^ 1) = .supported (m ^^^ 1) art ∧
    decodeFlags (f ^^^ 2) = .supported (m ^^^ 2) art

/-- From R75, R106 and D5: for every three distinct flag positions and both sub-mode bits, a word with exactly these
three flags set as wanted decodes to them, and a word with any other bit set is unsupported. -/
def Obligations.EveryFlagLayoutDecodes : Prop :=
  ∀ (c : Config), c.FlagsOk →
    (∀ (f : BitVec c.flagsW), (∀ k, k < c.flagsW → f.getLsbD k = true → k = c.flagLoopback ∨ k = c.flagSilent ∨ k = c.flagOneshot) →
      ∃ m, decodeFlags f = .supported m (!f.getLsbD c.flagOneshot) ∧
        m.getLsbD c.modeLoopback = f.getLsbD c.flagLoopback ∧ m.getLsbD c.modeSilent = f.getLsbD c.flagSilent) ∧
    (∀ (f : BitVec c.flagsW) (k : Nat), k < c.flagsW → f.getLsbD k = true → k ≠ c.flagLoopback → k ≠ c.flagSilent →
      k ≠ c.flagOneshot → decodeFlags f = .unsupported)

/-- From R116: the fixed record and its 72-bit value; it writes no register (the codes are the spec's decision D8). The
value is seen in the MODEL's latch `unitOut` (log 4), and the unit runs on its own as log 10 says. -/
def Obligations.BuildFilterAnswersTheFixedRecord : Prop :=
  (∀ s : State,
    let f : Filter := { id := 0x00000000, mask := 0x00000000, scale := 1, mode := 0, queue := 0, bank := 0, active := 1 }
    exec .buildFilter s = .next { s with unitOut := .filter f }) ∧
  buildFilter.bits = 0x000000000000000081

/-- From R115: the filter accepts every identifier. The comparison a mask filter makes is PRESUMED (R117, log 14). -/
def Obligations.BuiltFilterPassesEveryIdentifier : Prop :=
  ∀ identifier : BitVec 32, buildFilter.passes identifier = true

/-- From R124: five enable calls in order, `IEN` all ones, nothing else. The order of the five is the spec's decision D9.
R124 says that with `IEN` already all ones the question does not arise: that it runs there too, and from every other
state, as an instruction of its own is the MODEL's reading (log 10). -/
def Obligations.IrqEnableSetsAllFive : Prop :=
  ∀ s : State, exec .irqEnable s = .next { s with ien := 0b11111, ptrace := s.ptrace ++
    [.irqEn .errorWarning, .irqEn .errorPassive, .irqEn .busOff, .irqEn .lastErrorCode, .irqEn .genericError] }

/-- R125: five disable calls in order, whatever `IEN` was, `IEN` all zeros, nothing else. The order of the five is
the spec's decision D9. -/
def Obligations.IrqDisableClearsAllFive : Prop :=
  ∀ s : State, exec .irqDisable s = .next { s with ien := 0b00000, ptrace := s.ptrace ++
    [.irqDis .errorWarning, .irqDis .errorPassive, .irqDis .busOff, .irqDis .lastErrorCode, .irqDis .genericError] }

/-- From R139: interrupts off, then one `P_DEINIT` whose answer is discarded, then Disabled; nothing else changes (the
discarding is the spec's decision D23). R139 invokes it only when `STATE = 1`: that it runs from Disabled too, as an
instruction of its own, is the MODEL's reading (log 10). -/
def Obligations.TeardownRunsItsSequence : Prop :=
  ∀ s : State, exec .teardown s = .next { dropResults 1 s with
    state := .disabled, ien := 0b00000,
    ptrace := s.ptrace ++ (irqKinds.map Event.irqDis ++ [.deinit (nthResult s 0)]) }

/-- R133: INIT ends with `Ok` in Disabled with nothing staged; from Open it tears down first, from Disabled it makes no
call. `COUNT` and all else is unchanged. The teardown from Open is the spec's decision D24. -/
def Obligations.InitAlwaysSucceeds : Prop :=
  ∀ s : State,
    (s.state = .disabled → exec .init s = .next { s with state := .disabled, pcfg := none, res := .ok }) ∧
    (s.state = .opened → exec .init s = .next { dropResults 1 s with
      state := .disabled, pcfg := none, res := .ok, ien := 0b00000,
      ptrace := s.ptrace ++ (irqKinds.map Event.irqDis ++ [.deinit (nthResult s 0)]) })

/-- R134: OPENREQ checks the range, then the mode, then stages all four `PCFG` registers; an error writes `RES` only. No
call is made and all else is unchanged on every path. Range before mode is the spec's decision D25, the kept earlier
record D20. -/
def Obligations.OpenreqStagesOrReports : Prop :=
  ∀ (p j a b : Nat) (f : Flags) (s : State),
    (validate ⟨p, j, a, b⟩ = false → exec (.openreq p j a b f) s = .next { s with res := .configurationOutOfRange }) ∧
    (validate ⟨p, j, a, b⟩ = true → decodeFlags f = .unsupported →
      exec (.openreq p j a b f) s = .next { s with res := .unsupportedMode }) ∧
    (∀ (h : validate ⟨p, j, a, b⟩ = true) (m : Mode) (art : Bool), decodeFlags f = .supported m art →
      exec (.openreq p j a b f) s = .next { s with
        pcfg := some { timing := pack ⟨_, h⟩, mode := m, art := art, filter := buildFilter }, res := .ok })

/-- R136, every path of OPEN with the next state whole, from every state (the paths are the rows of R137's table; the
teardown from Open is the spec's decision D21, the failed start D22, the discarded answers D23, no `P_DEINIT` after a
failed `P_INIT` D30). `nthResult s k` is the k-th answer the peripheral will give, `dropResults k s` the state after k
answers. -/
def Obligations.OpenFollowsItsLines : Prop :=
  ∀ s : State,
    (s.staged = false → exec .openCmd s = .next { s with res := .notConfigured }) ∧
    ∀ c : PendingConfig, s.pcfg = some c →
      let d := if s.state = .opened then 1 else 0
      let off : IrqMask := if s.state = .opened then 0b00000 else s.ien
      let T := if s.state = .opened then irqKinds.map Event.irqDis ++ [Event.deinit (nthResult s 0)] else []
      let I := Event.init c.mode c.timing c.art (nthResult s d)
      let F := Event.cfgFilter c.filter (nthResult s (d + 1))
      let S := Event.start (nthResult s (d + 2))
      (nthResult s d = .fail → exec .openCmd s = .next { dropResults (d + 1) s with
        state := .disabled, ien := off, res := .hardwareInitFailed, ptrace := s.ptrace ++ (T ++ [I]) }) ∧
      (nthResult s d = .ok → nthResult s (d + 1) = .fail → exec .openCmd s = .next { dropResults (d + 3) s with
        state := .disabled, ien := off, res := .filterConfigFailed,
        ptrace := s.ptrace ++ (T ++ [I, F, .deinit (nthResult s (d + 2))]) }) ∧
      (nthResult s d = .ok → nthResult s (d + 1) = .ok → nthResult s (d + 2) = .fail →
        exec .openCmd s = .next { dropResults (d + 4) s with
          state := .disabled, ien := off, res := .hardwareInitFailed,
          ptrace := s.ptrace ++ (T ++ [I, F, S, .deinit (nthResult s (d + 3))]) }) ∧
      (nthResult s d = .ok → nthResult s (d + 1) = .ok → nthResult s (d + 2) = .ok →
        exec .openCmd s = .next { dropResults (d + 3) s with
          state := .opened, ien := 0b11111, res := .ok,
          ptrace := s.ptrace ++ (T ++ [I, F, S] ++ irqKinds.map Event.irqEn) })

/-- R138: CLOSE disables the interrupts in every state; from Open it deinitializes and ends Disabled whatever the answer,
reporting a failure; from Disabled it makes no `P_DEINIT`. All else is unchanged. -/
def Obligations.CloseDisablesThenDeinitializes : Prop :=
  ∀ s : State,
    (s.state = .disabled → exec .close s = .next { s with
      ien := 0b00000, res := .ok, ptrace := s.ptrace ++ irqKinds.map Event.irqDis }) ∧
    (s.state = .opened → exec .close s = .next { dropResults 1 s with
      state := .disabled, ien := 0b00000, res := if nthResult s 0 = .fail then .deinitFailed else .ok,
      ptrace := s.ptrace ++ (irqKinds.map Event.irqDis ++ [.deinit (nthResult s 0)]) })

/-- R155: CLOSE drives `STATE` to Disabled from every state, for every answer. -/
def Obligations.CloseAlwaysEndsDisabled : Prop :=
  ∀ s : State, ∃ t, exec .close s = .next t ∧ t.state = .disabled ∧ t.ien = 0b00000 ∧ t.pcfg = s.pcfg ∧ t.count = s.count

/-- R140: POLL gives 0 without a call in Disabled, whatever depth the hardware has; in Open it passes the depth of queue 0
through. All else is unchanged. -/
def Obligations.PollGuardsTheHardware : Prop :=
  ∀ s : State,
    (s.state = .disabled → exec .poll s = .next { s with count := 0, res := .ok }) ∧
    (s.state = .opened → exec .poll s = .next { dropDepth s with
      count := nextDepth s, res := .ok, ptrace := s.ptrace ++ [.rxDepth 0 (nextDepth s)] })

/-- From R141 (marked derived there): the state at exit of each of the five commands. -/
def Obligations.StateFollowsTheTransitionTable : Prop :=
  ∀ s t : State,
    (exec .init s = .next t → t.state = .disabled) ∧
    (∀ p j a b f, exec (.openreq p j a b f) s = .next t → t.state = s.state) ∧
    (exec .openCmd s = .next t → s.state = .disabled → (t.state = .opened ↔
      s.staged = true ∧ nthResult s 0 = .ok ∧ nthResult s 1 = .ok ∧ nthResult s 2 = .ok)) ∧
    (exec .openCmd s = .next t → s.state = .opened → s.staged = true → (t.state = .opened ↔
      nthResult s 1 = .ok ∧ nthResult s 2 = .ok ∧ nthResult s 3 = .ok)) ∧
    (exec .close s = .next t → t.state = .disabled) ∧
    (exec .poll s = .next t → t.state = s.state)

/-- From R142 and R61: a step only appends to `PTRACE`, at most 14 events; 14 happen. -/
def Obligations.AStepMakesAtMostFourteenCalls : Prop :=
  (∀ s t : State, step s = .next t → ∃ ev, t.ptrace = s.ptrace ++ ev ∧ ev.length ≤ 14) ∧
  (∃ s t : State, Inv s ∧ step s = .next t ∧ t.ptrace.length = s.ptrace.length + 14)

/-- From R143 (marked derived there): (a) to (d) of every trace that the monitor of Safety.lean allows (log 15; that every
step keeps `ProtocolInv` is `StepKeepsTheInvariant`), (e) to (g) of the events of one step. -/
def Obligations.TracePropertiesHold : Prop :=
  (∀ s : State, ProtocolInv s →
    (∀ pre mid post r r', s.ptrace = pre ++ .deinit r :: (mid ++ .deinit r' :: post) → ∃ e ∈ mid, e.isInit = true) ∧
    (∀ pre mid post m w a m' w' a' r, s.ptrace = pre ++ .init m w a .ok :: (mid ++ .init m' w' a' r :: post) →
      ∃ e ∈ mid, e.isDeinit = true) ∧
    (∀ pre post f r, s.ptrace = pre ++ .cfgFilter f r :: post → ∃ pre' m w a, pre = pre' ++ [.init m w a .ok]) ∧
    (∀ pre post r, s.ptrace = pre ++ .start r :: post → ∃ pre' f, pre = pre' ++ [.cfgFilter f .ok]) ∧
    (∀ pre post r, s.ptrace = pre ++ .deinit r :: post → traceMask pre = 0b00000)) ∧
  (∀ (s t : State) (w : Cmd) (rest : List Cmd) (ev : List Event), s.port = w :: rest → step s = .next t →
    t.ptrace = s.ptrace ++ ev →
    (∀ e ∈ ev, e.isRxDepth = true → s.state = .opened) ∧
    ((∃ p j a b f, decode w = .openreq p j a b f) → ev = []) ∧
    (decode w = .openCmd → s.staged = false → ev = []) ∧
    (decode w = .init → s.state = .disabled → ev = []) ∧
    (decode w = .poll → s.state = .disabled → ev = []) ∧
    (∀ e ∈ ev, e.isIrqEn = true → decode w = .openCmd ∧ t.state = .opened ∧ t.res = .ok ∧
      ∃ ev', ev = ev' ++ irqKinds.map Event.irqEn ∧ ∀ e' ∈ ev', e'.isIrqEn = false))

/-- From R36 (marked derived there): `IEN`, which is what the block has asked for, is all ones exactly while Open: every
step keeps this, and reset has it. At every `P_INIT`, `P_DEINIT`, `P_CFGFILTER` and `P_START` of a trace the monitor
allows (log 15), the trace before it has asked for all five kinds to be off. This says nothing of the peripheral's own
mask without the premises of R173 (the five kinds are off at reset), R127 (a mask call cannot fail) and R184 (nobody
else touches the mask) (log 13). -/
def Obligations.InterruptsEnabledExactlyWhileOpen : Prop :=
  IrqInv State.reset ∧ (∀ s t : State, IrqInv s → step s = .next t → IrqInv t) ∧
  (∀ s : State, ProtocolInv s → ∀ pre e post, s.ptrace = pre ++ e :: post → e.isHardwareStep = true →
    traceMask pre = 0b00000)

/-- From R29: `IEN` stays what the trace has asked for of every kind; the peripheral's own mask is another matter (log
13). -/
def Obligations.IenIsWhatTheTraceAskedFor : Prop :=
  ∀ s t : State, s.ien = traceMask s.ptrace → step s = .next t → t.ien = traceMask t.ptrace

/-- From R37 and R38 (marked derived there): these two are kept by every step, each on its own. -/
def Obligations.StagedRecordInvariants : Prop :=
  (∀ s t : State, StagingInv s → step s = .next t → StagingInv t) ∧
  (∀ s t : State, StagedWfInv s → step s = .next t → StagedWfInv t) ∧
  (∀ s t : State, (∀ c, s.pcfg = some c → c.timing &&& 0xFC08FC00 = 0 ∧ 1 ≤ (c.timing.extractLsb' 0 10).toNat) →
    step s = .next t → (∀ c, t.pcfg = some c → c.timing &&& 0xFC08FC00 = 0 ∧ 1 ≤ (c.timing.extractLsb' 0 10).toNat))

/-- Headline: every step, from every good state, on every command word and for every answer, ends in a good state: the
interrupt, staging, well-formedness, mask and call-order invariants together. The call order is the monitor's (log
15), and `IEN` is what was asked for (log 13). -/
def Obligations.StepKeepsTheInvariant : Prop :=
  ∀ s t : State, Inv s → step s = .next t → Inv t

/-- The reset state is a good state. -/
def Obligations.ResetMeetsTheInvariant : Prop := Inv State.reset

/-- From R33: the registers that no column of the matrix writes are unchanged, on every path of each command, EXCEPT
INIT's four `PCFG` cells: INIT clears `STAGED`, and with it the model discards the four registers, which R39 leaves
unspecified from then on (log 1). The caller's further commands, the depths a command does not read, and the latch are
unchanged too. -/
def Obligations.CommandsWriteOnlyTheirRegisters : Prop :=
  ∀ s t : State,
    (exec .init s = .next t → t.count = s.count ∧ (s.state = .disabled → t.ien = s.ien) ∧ t.depths = s.depths ∧
      t.unitOut = s.unitOut ∧ t.port = s.port) ∧
    (∀ p j a b f, exec (.openreq p j a b f) s = .next t → t.state = s.state ∧ t.ien = s.ien ∧ t.count = s.count ∧
      t.ptrace = s.ptrace ∧ t.answers = s.answers ∧ t.depths = s.depths ∧ t.draws = s.draws ∧ t.unitOut = s.unitOut ∧
      t.port = s.port) ∧
    (exec .openCmd s = .next t → t.pcfg = s.pcfg ∧ t.count = s.count ∧ t.depths = s.depths ∧ t.unitOut = s.unitOut ∧
      t.port = s.port) ∧
    (exec .close s = .next t → t.pcfg = s.pcfg ∧ t.count = s.count ∧ t.depths = s.depths ∧ t.unitOut = s.unitOut ∧
      t.port = s.port) ∧
    (exec .poll s = .next t → t.state = s.state ∧ t.pcfg = s.pcfg ∧ t.ien = s.ien ∧ t.answers = s.answers ∧
      t.unitOut = s.unitOut ∧ t.port = s.port)

/-- R151: the codes (numbered by the spec's decision D10), which command may end with which result, and the state when an
error is raised. The premises are R36's invariant and that the instruction is one of the five commands. -/
def Obligations.ResultsFollowTheErrorTable : Prop :=
  (Result.ok.code = 0 ∧ Result.hardwareInitFailed.code = 1 ∧ Result.filterConfigFailed.code = 2 ∧
    Result.deinitFailed.code = 3 ∧ Result.notConfigured.code = 4 ∧ Result.unsupportedMode.code = 5 ∧
    Result.configurationOutOfRange.code = 6) ∧
  ∀ (i : Instr) (s t : State), i.isUnit = false → IrqInv s → exec i s = .next t →
    t.res ∈ mayRaise i ∧
    (t.res = .hardwareInitFailed → t.state = .disabled ∧ t.ien = 0b00000 ∧
      ((∃ tr m w a, t.ptrace = tr ++ [.init m w a .fail]) ∨ ∃ tr r, t.ptrace = tr ++ [.start .fail, .deinit r])) ∧
    (t.res = .filterConfigFailed → t.state = .disabled ∧ t.ien = 0b00000 ∧
      ∃ tr f r, t.ptrace = tr ++ [.cfgFilter f .fail, .deinit r]) ∧
    (t.res = .deinitFailed → s.state = .opened ∧ t.state = .disabled ∧ t.ien = 0b00000 ∧
      ∃ tr, t.ptrace = tr ++ [.deinit .fail]) ∧
    (t.res = .notConfigured ∨ t.res = .unsupportedMode ∨ t.res = .configurationOutOfRange → t = { s with res := t.res }) ∧
    (t.res = .notConfigured → i = .openCmd ∧ s.staged = false) ∧
    (t.res = .unsupportedMode → ∃ p j a b f, i = .openreq p j a b f ∧ f &&& ~~~0x0000000B ≠ 0) ∧
    (t.res = .configurationOutOfRange → ∃ p j a b f, i = .openreq p j a b f ∧ validate ⟨p, j, a, b⟩ = false)

/-- From R32: a successful OPENREQ leaves a record from which UNPACK recovers the four operands and R108 the flags. -/
def Obligations.StagedOperandsAreRecoverable : Prop :=
  ∀ (p j a b : Nat) (f : Flags) (s : State), validate ⟨p, j, a, b⟩ = true → f &&& ~~~0x0000000B = 0 →
    ∃ c, exec (.openreq p j a b f) s = .next { s with pcfg := some c, res := .ok } ∧
      unpack c.timing = ⟨p, j, a, b⟩ ∧ f.getLsbD 1 = c.mode.getLsbD 1 ∧ f.getLsbD 0 = c.mode.getLsbD 0 ∧
      f.getLsbD 3 = !c.art

/-- From R30, R31 and R34: no rule reads `RES`, `COUNT` or `PTRACE`: changing them before an instruction changes nothing
after it but what is left of them. -/
def Obligations.OutputsAndHistoryAreNeverRead : Prop :=
  ∀ (i : Instr) (s t : State) (r : Result) (n : Count) (p : List Event), exec i s = .next t →
    ∃ ev, t.ptrace = s.ptrace ++ ev ∧
      exec i { s with res := r, count := n, ptrace := p } = .next { t with
        ptrace := p ++ ev, res := if i.isUnit then r else t.res, count := if i = .poll then t.count else n }

/-- From R51 and R53 (log 2): scripted answers are taken oldest first, each once; after them every answer is a fresh free
value, of which nothing is known. -/
def Obligations.AnswersAreTakenInOrder : Prop :=
  (∀ (s : State) (r : PResult) (rs : List PResult), s.answers = r :: rs →
    nthResult s 0 = r ∧ dropResults 1 s = { s with answers := rs }) ∧
  (∀ (s : State) (k : Nat), s.answers = [] →
    nthResult s k = Config.freeResult (s.draws + k) ∧ dropResults k s = { s with draws := s.draws + k }) ∧
  (∀ (s : State) (j k : Nat), nthResult (dropResults j s) k = nthResult s (j + k) ∧
    dropResults k (dropResults j s) = dropResults (j + k) s) ∧
  (∀ (s : State) (n : Count) (ns : List Count), s.depths = n :: ns →
    nextDepth s = n ∧ dropDepth s = { s with depths := ns }) ∧
  (∀ s : State, s.depths = [] → nextDepth s = cfg.freeDepth s.draws ∧ dropDepth s = { s with draws := s.draws + 1 })

/-- From R53 and R136: from every state with a staged record, each of OPEN's three results happens for some answers. -/
def Obligations.EveryOpenOutcomeHappens : Prop :=
  ∀ (s : State), s.staged = true →
    ∀ r ∈ [Result.ok, .hardwareInitFailed, .filterConfigFailed],
      ∃ (script : List PResult) (t : State), exec .openCmd { s with answers := script } = .next t ∧ t.res = r ∧
        (t.state = .opened ↔ r = .ok)

/-- From R156: after a failed OPEN the record is still staged, and a retry whose hardware steps succeed opens it with the
same record. -/
def Obligations.FailedOpenCanBeRetried : Prop :=
  ∀ (s t : State) (c : PendingConfig), IrqInv s → s.pcfg = some c → exec .openCmd s = .next t → t.res ≠ .ok →
    t.pcfg = some c ∧ t.state = .disabled ∧
    ∃ u, exec .openCmd { t with answers := [.ok, .ok, .ok] } = .next u ∧ u.state = .opened ∧ u.res = .ok ∧
      u.ptrace = t.ptrace ++ ([.init c.mode c.timing c.art .ok, .cfgFilter c.filter .ok, .start .ok] ++
        irqKinds.map Event.irqEn)

/-- From R64 and R182: a successful OPENREQ makes no call, in every state; the OPEN that follows hands the peripheral the
values of that request and of no earlier one. -/
def Obligations.OpenUsesTheLatestRequest : Prop :=
  ∀ (p j a b : Nat) (f : Flags) (s : State) (h : validate ⟨p, j, a, b⟩ = true) (m : Mode) (art : Bool),
    decodeFlags f = .supported m art →
    ∃ t u ev, exec (.openreq p j a b f) s = .next t ∧ t.ptrace = s.ptrace ∧ t.state = s.state ∧
      exec .openCmd t = .next u ∧ u.ptrace = t.ptrace ++ ev ∧
      (∃ r, Event.init m (pack ⟨_, h⟩) art r ∈ ev) ∧
      (∀ e ∈ ev, e.isInit = true → ∃ r, e = .init m (pack ⟨_, h⟩) art r) ∧
      (∀ g r, Event.cfgFilter g r ∈ ev → g = buildFilter)

/-- From R138 and R156: after any CLOSE, a failed one too, a further CLOSE answers `Ok`, stays Disabled and makes the five
disable calls and no `P_DEINIT`. -/
def Obligations.SecondCloseMakesNoDeinit : Prop :=
  ∀ s t : State, exec .close s = .next t →
    ∃ u, exec .close t = .next u ∧ u.res = .ok ∧ u.state = .disabled ∧
      u.ptrace = t.ptrace ++ irqKinds.map Event.irqDis ∧ u.answers = t.answers ∧ u.draws = t.draws

/-- From R8: the decided values of the record, and that they meet the constraints the spec gives about them. The constraints
on the code numbers (`CodesOk`) are the MODEL's reading of R8's last column and of D7, D9, D10, D11 (log 11). -/
def Obligations.DecidedRecordMeetsTheConstraints : Prop :=
  [cfg.wordW, cfg.sjwOff, cfg.sjwW, cfg.ts1Off, cfg.ts1W, cfg.ts2Off, cfg.ts2W, cfg.prescOff, cfg.prescW, cfg.prescMax] =
    [32, 24, 2, 20, 4, 16, 3, 0, 10, 1023] ∧
  [cfg.operandW, cfg.flagsW, cfg.flagLoopback, cfg.flagSilent, cfg.flagOneshot] = [32, 32, 0, 1, 3] ∧
  [cfg.modeW, cfg.modeLoopback, cfg.modeSilent] = [2, 0, 1] ∧ [cfg.artEnabled, cfg.artDisabled] = [1, 0] ∧
  [cfg.filterScale32, cfg.filterModeMask, cfg.filterQueuePrimary, cfg.filterActive] = [1, 0, 0, 1] ∧ cfg.filterBank = 0 ∧
  irqKinds = [.errorWarning, .errorPassive, .busOff, .lastErrorCode, .genericError] ∧
  irqKinds.map (irqBit cfg) = [0, 1, 2, 3, 4] ∧
  [cfg.resOk, cfg.resHardwareInitFailed, cfg.resFilterConfigFailed, cfg.resDeinitFailed, cfg.resNotConfigured,
    cfg.resUnsupportedMode, cfg.resConfigurationOutOfRange] = [0, 1, 2, 3, 4, 5, 6] ∧
  [cfg.opInit, cfg.opOpenreq, cfg.opOpen, cfg.opClose, cfg.opPoll, cfg.opW] = [0, 1, 2, 3, 4, 3] ∧
  cfg.countW = 32 ∧ cfg.qPrimary = 0 ∧ cfg.TimingOk ∧ cfg.FlagsOk ∧ cfg.CodesOk

/-- From R8: the machine is the block taken at the record's decided value, in every state, the stops included. -/
def Obligations.StepIsTheBlockAtTheDecidedRecord : Prop :=
  (∀ s : State, step s = stepWith s) ∧ State.reset = State.resetWith cfg

/-- From R8 and R71: for every record, of whatever widths, the six fields of a word are read back from it; with distinct
code numbers each code names its command and no other code names one. -/
def Obligations.EveryRecordReadsItsCommandWord : Prop :=
  ∀ c : Config,
    (∀ (op : BitVec c.opW) (p s a b : BitVec c.operandW) (f : BitVec c.flagsW),
      let w := assembleWith c op p s a b f
      cmdOpWith c w = op ∧ cmdPrescWith c w = p ∧ cmdSjwWith c w = s ∧ cmdTs1With c w = a ∧ cmdTs2With c w = b ∧
        cmdFlagsWith c w = f) ∧
    (c.CodesOk → ∀ n : Nat,
      (commandOf c n = .init ↔ n = c.opInit) ∧ (commandOf c n = .openreq ↔ n = c.opOpenreq) ∧
      (commandOf c n = .openCmd ↔ n = c.opOpen) ∧ (commandOf c n = .close ↔ n = c.opClose) ∧
      (commandOf c n = .poll ↔ n = c.opPoll))

/-- From R8: for every record that meets the constraints, of whatever widths, offsets, codes and call order, every step of
the block keeps the whole invariant, and the reset state of that record has it. The monitor is log 15's, the constraints on
the code numbers log 11's, and `IEN` is what was asked for (log 13). -/
def Obligations.EveryRecordKeepsTheInvariant : Prop :=
  ∀ c : Config, c.TimingOk → c.CodesOk →
    Inv (State.resetWith c) ∧ ∀ s t : State c, Inv s → stepWith s = .next t → Inv t
end

