-- ==== Sys2Proof/Laws/State.lean ====
section
/-! SUPPORT. One lemma per field of `State` per named update, true by rfl. -/

namespace Sys2Proof.Machine

variable {c : Config}

@[simp] theorem setState_state (v : InterfaceState) (s : State c) : (setState v s).state = v := rfl
@[simp] theorem setState_pcfg (v : InterfaceState) (s : State c) : (setState v s).pcfg = s.pcfg := rfl
@[simp] theorem setState_ien (v : InterfaceState) (s : State c) : (setState v s).ien = s.ien := rfl
@[simp] theorem setState_res (v : InterfaceState) (s : State c) : (setState v s).res = s.res := rfl
@[simp] theorem setState_count (v : InterfaceState) (s : State c) : (setState v s).count = s.count := rfl
@[simp] theorem setState_ptrace (v : InterfaceState) (s : State c) : (setState v s).ptrace = s.ptrace := rfl
@[simp] theorem setState_unitOut (v : InterfaceState) (s : State c) : (setState v s).unitOut = s.unitOut := rfl
@[simp] theorem setState_port (v : InterfaceState) (s : State c) : (setState v s).port = s.port := rfl
@[simp] theorem setState_answers (v : InterfaceState) (s : State c) : (setState v s).answers = s.answers := rfl
@[simp] theorem setState_depths (v : InterfaceState) (s : State c) : (setState v s).depths = s.depths := rfl
@[simp] theorem setState_draws (v : InterfaceState) (s : State c) : (setState v s).draws = s.draws := rfl

@[simp] theorem setPcfg_state (v : Option (PendingConfig c)) (s : State c) : (setPcfg v s).state = s.state := rfl
@[simp] theorem setPcfg_pcfg (v : Option (PendingConfig c)) (s : State c) : (setPcfg v s).pcfg = v := rfl
@[simp] theorem setPcfg_ien (v : Option (PendingConfig c)) (s : State c) : (setPcfg v s).ien = s.ien := rfl
@[simp] theorem setPcfg_res (v : Option (PendingConfig c)) (s : State c) : (setPcfg v s).res = s.res := rfl
@[simp] theorem setPcfg_count (v : Option (PendingConfig c)) (s : State c) : (setPcfg v s).count = s.count := rfl
@[simp] theorem setPcfg_ptrace (v : Option (PendingConfig c)) (s : State c) : (setPcfg v s).ptrace = s.ptrace := rfl
@[simp] theorem setPcfg_unitOut (v : Option (PendingConfig c)) (s : State c) : (setPcfg v s).unitOut = s.unitOut := rfl
@[simp] theorem setPcfg_port (v : Option (PendingConfig c)) (s : State c) : (setPcfg v s).port = s.port := rfl
@[simp] theorem setPcfg_answers (v : Option (PendingConfig c)) (s : State c) : (setPcfg v s).answers = s.answers := rfl
@[simp] theorem setPcfg_depths (v : Option (PendingConfig c)) (s : State c) : (setPcfg v s).depths = s.depths := rfl
@[simp] theorem setPcfg_draws (v : Option (PendingConfig c)) (s : State c) : (setPcfg v s).draws = s.draws := rfl

@[simp] theorem setIen_state (v : IrqMask) (s : State c) : (setIen v s).state = s.state := rfl
@[simp] theorem setIen_pcfg (v : IrqMask) (s : State c) : (setIen v s).pcfg = s.pcfg := rfl
@[simp] theorem setIen_ien (v : IrqMask) (s : State c) : (setIen v s).ien = v := rfl
@[simp] theorem setIen_res (v : IrqMask) (s : State c) : (setIen v s).res = s.res := rfl
@[simp] theorem setIen_count (v : IrqMask) (s : State c) : (setIen v s).count = s.count := rfl
@[simp] theorem setIen_ptrace (v : IrqMask) (s : State c) : (setIen v s).ptrace = s.ptrace := rfl
@[simp] theorem setIen_unitOut (v : IrqMask) (s : State c) : (setIen v s).unitOut = s.unitOut := rfl
@[simp] theorem setIen_port (v : IrqMask) (s : State c) : (setIen v s).port = s.port := rfl
@[simp] theorem setIen_answers (v : IrqMask) (s : State c) : (setIen v s).answers = s.answers := rfl
@[simp] theorem setIen_depths (v : IrqMask) (s : State c) : (setIen v s).depths = s.depths := rfl
@[simp] theorem setIen_draws (v : IrqMask) (s : State c) : (setIen v s).draws = s.draws := rfl

@[simp] theorem setRes_state (v : Result) (s : State c) : (setRes v s).state = s.state := rfl
@[simp] theorem setRes_pcfg (v : Result) (s : State c) : (setRes v s).pcfg = s.pcfg := rfl
@[simp] theorem setRes_ien (v : Result) (s : State c) : (setRes v s).ien = s.ien := rfl
@[simp] theorem setRes_res (v : Result) (s : State c) : (setRes v s).res = v := rfl
@[simp] theorem setRes_count (v : Result) (s : State c) : (setRes v s).count = s.count := rfl
@[simp] theorem setRes_ptrace (v : Result) (s : State c) : (setRes v s).ptrace = s.ptrace := rfl
@[simp] theorem setRes_unitOut (v : Result) (s : State c) : (setRes v s).unitOut = s.unitOut := rfl
@[simp] theorem setRes_port (v : Result) (s : State c) : (setRes v s).port = s.port := rfl
@[simp] theorem setRes_answers (v : Result) (s : State c) : (setRes v s).answers = s.answers := rfl
@[simp] theorem setRes_depths (v : Result) (s : State c) : (setRes v s).depths = s.depths := rfl
@[simp] theorem setRes_draws (v : Result) (s : State c) : (setRes v s).draws = s.draws := rfl

@[simp] theorem setCount_state (v : BitVec c.countW) (s : State c) : (setCount v s).state = s.state := rfl
@[simp] theorem setCount_pcfg (v : BitVec c.countW) (s : State c) : (setCount v s).pcfg = s.pcfg := rfl
@[simp] theorem setCount_ien (v : BitVec c.countW) (s : State c) : (setCount v s).ien = s.ien := rfl
@[simp] theorem setCount_res (v : BitVec c.countW) (s : State c) : (setCount v s).res = s.res := rfl
@[simp] theorem setCount_count (v : BitVec c.countW) (s : State c) : (setCount v s).count = v := rfl
@[simp] theorem setCount_ptrace (v : BitVec c.countW) (s : State c) : (setCount v s).ptrace = s.ptrace := rfl
@[simp] theorem setCount_unitOut (v : BitVec c.countW) (s : State c) : (setCount v s).unitOut = s.unitOut := rfl
@[simp] theorem setCount_port (v : BitVec c.countW) (s : State c) : (setCount v s).port = s.port := rfl
@[simp] theorem setCount_answers (v : BitVec c.countW) (s : State c) : (setCount v s).answers = s.answers := rfl
@[simp] theorem setCount_depths (v : BitVec c.countW) (s : State c) : (setCount v s).depths = s.depths := rfl
@[simp] theorem setCount_draws (v : BitVec c.countW) (s : State c) : (setCount v s).draws = s.draws := rfl

@[simp] theorem setUnitOut_state (v : UnitResult c) (s : State c) : (setUnitOut v s).state = s.state := rfl
@[simp] theorem setUnitOut_pcfg (v : UnitResult c) (s : State c) : (setUnitOut v s).pcfg = s.pcfg := rfl
@[simp] theorem setUnitOut_ien (v : UnitResult c) (s : State c) : (setUnitOut v s).ien = s.ien := rfl
@[simp] theorem setUnitOut_res (v : UnitResult c) (s : State c) : (setUnitOut v s).res = s.res := rfl
@[simp] theorem setUnitOut_count (v : UnitResult c) (s : State c) : (setUnitOut v s).count = s.count := rfl
@[simp] theorem setUnitOut_ptrace (v : UnitResult c) (s : State c) : (setUnitOut v s).ptrace = s.ptrace := rfl
@[simp] theorem setUnitOut_unitOut (v : UnitResult c) (s : State c) : (setUnitOut v s).unitOut = v := rfl
@[simp] theorem setUnitOut_port (v : UnitResult c) (s : State c) : (setUnitOut v s).port = s.port := rfl
@[simp] theorem setUnitOut_answers (v : UnitResult c) (s : State c) : (setUnitOut v s).answers = s.answers := rfl
@[simp] theorem setUnitOut_depths (v : UnitResult c) (s : State c) : (setUnitOut v s).depths = s.depths := rfl
@[simp] theorem setUnitOut_draws (v : UnitResult c) (s : State c) : (setUnitOut v s).draws = s.draws := rfl

@[simp] theorem logEvent_state (e : Event c) (s : State c) : (logEvent e s).state = s.state := rfl
@[simp] theorem logEvent_pcfg (e : Event c) (s : State c) : (logEvent e s).pcfg = s.pcfg := rfl
@[simp] theorem logEvent_ien (e : Event c) (s : State c) : (logEvent e s).ien = s.ien := rfl
@[simp] theorem logEvent_res (e : Event c) (s : State c) : (logEvent e s).res = s.res := rfl
@[simp] theorem logEvent_count (e : Event c) (s : State c) : (logEvent e s).count = s.count := rfl
@[simp] theorem logEvent_ptrace (e : Event c) (s : State c) : (logEvent e s).ptrace = s.ptrace ++ [e] := rfl
@[simp] theorem logEvent_unitOut (e : Event c) (s : State c) : (logEvent e s).unitOut = s.unitOut := rfl
@[simp] theorem logEvent_port (e : Event c) (s : State c) : (logEvent e s).port = s.port := rfl
@[simp] theorem logEvent_answers (e : Event c) (s : State c) : (logEvent e s).answers = s.answers := rfl
@[simp] theorem logEvent_depths (e : Event c) (s : State c) : (logEvent e s).depths = s.depths := rfl
@[simp] theorem logEvent_draws (e : Event c) (s : State c) : (logEvent e s).draws = s.draws := rfl

@[simp] theorem dropResults_state (k : Nat) (s : State c) : (dropResults k s).state = s.state := rfl
@[simp] theorem dropResults_pcfg (k : Nat) (s : State c) : (dropResults k s).pcfg = s.pcfg := rfl
@[simp] theorem dropResults_ien (k : Nat) (s : State c) : (dropResults k s).ien = s.ien := rfl
@[simp] theorem dropResults_res (k : Nat) (s : State c) : (dropResults k s).res = s.res := rfl
@[simp] theorem dropResults_count (k : Nat) (s : State c) : (dropResults k s).count = s.count := rfl
@[simp] theorem dropResults_ptrace (k : Nat) (s : State c) : (dropResults k s).ptrace = s.ptrace := rfl
@[simp] theorem dropResults_unitOut (k : Nat) (s : State c) : (dropResults k s).unitOut = s.unitOut := rfl
@[simp] theorem dropResults_port (k : Nat) (s : State c) : (dropResults k s).port = s.port := rfl
@[simp] theorem dropResults_answers (k : Nat) (s : State c) : (dropResults k s).answers = s.answers.drop k := rfl
@[simp] theorem dropResults_depths (k : Nat) (s : State c) : (dropResults k s).depths = s.depths := rfl
@[simp] theorem dropResults_draws (k : Nat) (s : State c) : (dropResults k s).draws = s.draws + (k - s.answers.length) := rfl

@[simp] theorem setPcfg_staged (v : Option (PendingConfig c)) (s : State c) : (setPcfg v s).staged = v.isSome := rfl

/-- `dropDepth` touches the depths and the draw counter only. -/
theorem dropDepth_frame (s : State c) : dropDepth s = { s with depths := s.depths.tail, draws := (dropDepth s).draws } := by
  obtain ⟨_, _, _, _, _, _, _, _, _, ds, _⟩ := s
  cases ds <;> rfl

@[simp] theorem dropDepth_state (s : State c) : (dropDepth s).state = s.state := by rw [dropDepth_frame]
@[simp] theorem dropDepth_pcfg (s : State c) : (dropDepth s).pcfg = s.pcfg := by rw [dropDepth_frame]
@[simp] theorem dropDepth_ien (s : State c) : (dropDepth s).ien = s.ien := by rw [dropDepth_frame]
@[simp] theorem dropDepth_res (s : State c) : (dropDepth s).res = s.res := by rw [dropDepth_frame]
@[simp] theorem dropDepth_count (s : State c) : (dropDepth s).count = s.count := by rw [dropDepth_frame]
@[simp] theorem dropDepth_ptrace (s : State c) : (dropDepth s).ptrace = s.ptrace := by rw [dropDepth_frame]
@[simp] theorem dropDepth_unitOut (s : State c) : (dropDepth s).unitOut = s.unitOut := by rw [dropDepth_frame]
@[simp] theorem dropDepth_port (s : State c) : (dropDepth s).port = s.port := by rw [dropDepth_frame]
@[simp] theorem dropDepth_answers (s : State c) : (dropDepth s).answers = s.answers := by rw [dropDepth_frame]

end Sys2Proof.Machine
end

