-- ==== Sys2Proof/Laws/Ops.lean ====
section
/-!
SUPPORT. One lemma per shared operation that says everything it can do; the provers cite these instead of unfolding.
-/

namespace Sys2Proof.Machine

variable {c : Config}

/-! ### Errors and results -/

theorem raise_eq (e : Result) (s : State c) : raise e s = .next { s with res := e } := rfl

theorem returnOk_eq (s : State c) : returnOk s = .next { s with res := .ok } := rfl

/-! ### The peripheral's answers -/

@[simp] theorem nthResult_dropResults (s : State c) (j k : Nat) :
    nthResult (dropResults j s) k = nthResult s (j + k) := by
  simp only [nthResult, dropResults_answers, dropResults_draws, List.getElem?_drop, List.length_drop]
  cases h : s.answers[j + k]? with
  | some r => rfl
  | none =>
    have := List.getElem?_eq_none_iff.mp h
    simp only
    congr 1
    omega

@[simp] theorem dropResults_dropResults (s : State c) (j k : Nat) :
    dropResults k (dropResults j s) = dropResults (j + k) s := by
  simp only [dropResults, List.drop_drop, List.length_drop]
  congr 1
  omega

@[simp] theorem dropResults_zero (s : State c) : dropResults 0 s = s := by simp [dropResults]

/-- An update of the registers does not change which answers come next. -/
@[simp] theorem nthResult_setState (v : InterfaceState) (s : State c) (k : Nat) : nthResult (setState v s) k = nthResult s k := rfl
@[simp] theorem nthResult_setIen (v : IrqMask) (s : State c) (k : Nat) : nthResult (setIen v s) k = nthResult s k := rfl
@[simp] theorem nthResult_setRes (v : Result) (s : State c) (k : Nat) : nthResult (setRes v s) k = nthResult s k := rfl
@[simp] theorem nthResult_logEvent (e : Event c) (s : State c) (k : Nat) : nthResult (logEvent e s) k = nthResult s k := rfl

/-- The answers depend on the script and the draw counter only. -/
theorem nthResult_congr {s t : State c} (ha : t.answers = s.answers) (hd : t.draws = s.draws) (k : Nat) :
    nthResult t k = nthResult s k := by simp [nthResult, ha, hd]

/-- Every `Ok`/`Fail` call: the answer is the next one, the event is appended, one answer is taken. -/
theorem callResult_eq (e : PResult → Event c) (s : State c) :
    callResult e s = (nthResult s 0, { dropResults 1 s with ptrace := s.ptrace ++ [e (nthResult s 0)] }) := rfl

theorem pInit_eq (p : PendingConfig c) (s : State c) : pInit p s =
    (nthResult s 0, { dropResults 1 s with ptrace := s.ptrace ++ [.init p.mode p.timing p.art (nthResult s 0)] }) := rfl

theorem pDeinit_eq (s : State c) : pDeinit s =
    (nthResult s 0, { dropResults 1 s with ptrace := s.ptrace ++ [.deinit (nthResult s 0)] }) := rfl

theorem pCfgFilter_eq (f : Filter) (s : State c) : pCfgFilter f s =
    (nthResult s 0, { dropResults 1 s with ptrace := s.ptrace ++ [.cfgFilter f (nthResult s 0)] }) := rfl

theorem pStart_eq (s : State c) : pStart s =
    (nthResult s 0, { dropResults 1 s with ptrace := s.ptrace ++ [.start (nthResult s 0)] }) := rfl

theorem pRxDepth_eq (q : QueueId) (s : State c) : pRxDepth q s =
    (nextDepth s, { dropDepth s with ptrace := s.ptrace ++ [.rxDepth q (nextDepth s)] }) := by
  simp [pRxDepth, logEvent]

/-! ### The interrupt gate and the teardown -/

/-- The five calls of the gate append their events in the record's order and do nothing else. -/
theorem foldl_logEvent (e : IrqKind → Event c) (ks : List IrqKind) (s : State c) :
    ks.foldl (fun t k => logEvent (e k) t) s = { s with ptrace := s.ptrace ++ ks.map e } := by
  induction ks generalizing s with
  | nil => simp
  | cons k ks ih =>
    rw [List.foldl_cons, ih]
    simp [logEvent]

/-- IRQ_ENABLE: `IEN` all ones, the five enable events appended, nothing else. -/
theorem irqEnable_eq (s : State c) :
    irqEnable s = { s with ien := irqAll, ptrace := s.ptrace ++ (irqKinds c).map Event.irqEn } := by
  simp only [irqEnable, pIrqEn, foldl_logEvent, setIen]

/-- IRQ_DISABLE: `IEN` all zeros, the five disable events appended, nothing else. -/
theorem irqDisable_eq (s : State c) :
    irqDisable s = { s with ien := irqNone, ptrace := s.ptrace ++ (irqKinds c).map Event.irqDis } := by
  simp only [irqDisable, pIrqDis, foldl_logEvent, setIen]

/-- The events a teardown appends. -/
def teardownEvents (s : State c) : List (Event c) := (irqKinds c).map Event.irqDis ++ [.deinit (nthResult s 0)]

/-- TEARDOWN as one record. -/
theorem teardown_eq (s : State c) : teardown s =
    { dropResults 1 s with state := .disabled, ien := irqNone, ptrace := s.ptrace ++ teardownEvents s } := by
  simp [teardown, pDeinit_eq, irqDisable_eq, setState, dropResults, nthResult, teardownEvents]

theorem teardownIfOpen_disabled {s : State c} (h : s.state = .disabled) : teardownIfOpen s = s := by
  simp [teardownIfOpen, h]

theorem teardownIfOpen_opened {s : State c} (h : s.state = .opened) : teardownIfOpen s = teardown s := by
  simp [teardownIfOpen, h]

/-- `STATE` has two values. -/
theorem state_cases (s : State c) : s.state = .disabled ∨ s.state = .opened := by
  cases s.state <;> simp

/-- An answer has two values. -/
theorem result_cases (r : PResult) : r = .ok ∨ r = .fail := by cases r <;> simp

end Sys2Proof.Machine
end

