-- ==== Sys2Proof/Laws/PerInstr.lean ====
section
/-!
SUPPORT. Per-instruction lemmas: the family `EncodedForm` says of one instruction that, well formed, its word (if it has
one) decodes to it again.
-/

namespace Sys2Proof.Laws

/-- Where each bit of an assembled word comes from (30_encoding.md R71). -/
theorem assemble_getLsbD (op : BitVec 3) (p s a b f : BitVec 32) (i : Nat) :
    (assemble op p s a b f).getLsbD i =
      if i < 32 then f.getLsbD i else if i < 64 then b.getLsbD (i - 32) else if i < 96 then a.getLsbD (i - 64)
      else if i < 128 then s.getLsbD (i - 96) else if i < 160 then p.getLsbD (i - 128) else op.getLsbD (i - 160) := by
  show BitVec.getLsbD (w := 3 + 32 + 32 + 32 + 32 + 32) (op ++ p ++ s ++ a ++ b ++ f) i = _
  rw [BitVec.getLsbD_append, BitVec.getLsbD_append, BitVec.getLsbD_append, BitVec.getLsbD_append, BitVec.getLsbD_append]
  simp only [Nat.sub_sub]
  grind

/-- The bits of each field of a word (R71). -/
theorem cmdOp_getLsbD (w : Cmd) (i : Nat) : (cmdOp w).getLsbD i = (decide (i < 3) && w.getLsbD (160 + i)) :=
  BitVec.getLsbD_extractLsb' ..
theorem cmdPresc_getLsbD (w : Cmd) (i : Nat) : (cmdPresc w).getLsbD i = (decide (i < 32) && w.getLsbD (128 + i)) :=
  BitVec.getLsbD_extractLsb' ..
theorem cmdSjw_getLsbD (w : Cmd) (i : Nat) : (cmdSjw w).getLsbD i = (decide (i < 32) && w.getLsbD (96 + i)) :=
  BitVec.getLsbD_extractLsb' ..
theorem cmdTs1_getLsbD (w : Cmd) (i : Nat) : (cmdTs1 w).getLsbD i = (decide (i < 32) && w.getLsbD (64 + i)) :=
  BitVec.getLsbD_extractLsb' ..
theorem cmdTs2_getLsbD (w : Cmd) (i : Nat) : (cmdTs2 w).getLsbD i = (decide (i < 32) && w.getLsbD (32 + i)) :=
  BitVec.getLsbD_extractLsb' ..
theorem cmdFlags_getLsbD (w : Cmd) (i : Nat) : (cmdFlags w).getLsbD i = (decide (i < 32) && w.getLsbD (0 + i)) :=
  BitVec.getLsbD_extractLsb' ..

@[simp] theorem cmdOp_assemble (op : BitVec 3) (p s a b f : BitVec 32) : cmdOp (assemble op p s a b f) = op := by
  apply BitVec.eq_of_getLsbD_eq
  intro i hi
  simp only [cmdOp_getLsbD, assemble_getLsbD]
  grind

@[simp] theorem cmdPresc_assemble (op : BitVec 3) (p s a b f : BitVec 32) : cmdPresc (assemble op p s a b f) = p := by
  apply BitVec.eq_of_getLsbD_eq
  intro i hi
  simp only [cmdPresc_getLsbD, assemble_getLsbD]
  grind

@[simp] theorem cmdSjw_assemble (op : BitVec 3) (p s a b f : BitVec 32) : cmdSjw (assemble op p s a b f) = s := by
  apply BitVec.eq_of_getLsbD_eq
  intro i hi
  simp only [cmdSjw_getLsbD, assemble_getLsbD]
  grind

@[simp] theorem cmdTs1_assemble (op : BitVec 3) (p s a b f : BitVec 32) : cmdTs1 (assemble op p s a b f) = a := by
  apply BitVec.eq_of_getLsbD_eq
  intro i hi
  simp only [cmdTs1_getLsbD, assemble_getLsbD]
  grind

@[simp] theorem cmdTs2_assemble (op : BitVec 3) (p s a b f : BitVec 32) : cmdTs2 (assemble op p s a b f) = b := by
  apply BitVec.eq_of_getLsbD_eq
  intro i hi
  simp only [cmdTs2_getLsbD, assemble_getLsbD]
  grind

@[simp] theorem cmdFlags_assemble (op : BitVec 3) (p s a b f : BitVec 32) : cmdFlags (assemble op p s a b f) = f := by
  apply BitVec.eq_of_getLsbD_eq
  intro i hi
  simp only [cmdFlags_getLsbD, assemble_getLsbD]
  grind

/-! ### What each value of `op` decodes to (R72) -/

theorem op_cases (o : BitVec 3) : o = 0 ∨ o = 1 ∨ o = 2 ∨ o = 3 ∨ o = 4 ∨ o = 5 ∨ o = 6 ∨ o = 7 := by
  revert o
  decide

theorem decode_init {w : Cmd} (h : cmdOp w = 0) : decode w = .init := by simp [decode, commandOf, h]
theorem decode_openreq {w : Cmd} (h : cmdOp w = 1) :
    decode w = .openreq (cmdPresc w).toNat (cmdSjw w).toNat (cmdTs1 w).toNat (cmdTs2 w).toNat (cmdFlags w) := by simp [decode, commandOf, h]
theorem decode_openCmd {w : Cmd} (h : cmdOp w = 2) : decode w = .openCmd := by simp [decode, commandOf, h]
theorem decode_close {w : Cmd} (h : cmdOp w = 3) : decode w = .close := by simp [decode, commandOf, h]
theorem decode_poll {w : Cmd} (h : cmdOp w = 4) : decode w = .poll := by simp [decode, commandOf, h]
theorem decode_reserved5 {w : Cmd} (h : cmdOp w = 5) : decode w = .reserved5 := by simp [decode, commandOf, h]
theorem decode_reserved6 {w : Cmd} (h : cmdOp w = 6) : decode w = .reserved6 := by simp [decode, commandOf, h]
theorem decode_reserved7 {w : Cmd} (h : cmdOp w = 7) : decode w = .reserved7 := by simp [decode, commandOf, h]

/-- A word is the assembly of its own six fields. -/
theorem assemble_fields (w : Cmd) :
    assemble (cmdOp w) (cmdPresc w) (cmdSjw w) (cmdTs1 w) (cmdTs2 w) (cmdFlags w) = w := by
  apply BitVec.eq_of_getLsbD_eq
  intro i hi
  rw [assemble_getLsbD, cmdOp_getLsbD, cmdPresc_getLsbD, cmdSjw_getLsbD, cmdTs1_getLsbD, cmdTs2_getLsbD,
    cmdFlags_getLsbD]
  grind

/-! ### The byte form (log 8) -/

theorem length_bytesOfNat (n w : Nat) : (bytesOfNat n w).length = n := by
  induction n generalizing w with
  | zero => rfl
  | succ n ih => simp [bytesOfNat, ih]

theorem natOfBytes_bytesOfNat (n w : Nat) (rest : List Byte) :
    natOfBytes ((bytesOfNat n w ++ rest).take n) = w % 256 ^ n := by
  induction n generalizing w with
  | zero => simp [natOfBytes, Nat.mod_one]
  | succ n ih =>
    simp only [bytesOfNat, List.cons_append, List.take_succ_cons, natOfBytes, ih, BitVec.toNat_ofNat]
    rw [Nat.pow_succ 256 n, Nat.mul_comm (256 ^ n) 256, Nat.mod_mul]

namespace EncodedForm

/-- The family's statement about one instruction. -/
def Statement (i : Instr) : Prop := i.wf = true → ∀ w, encode i = some w → Sys2Proof.decode w = i

/-- A format-N word decodes by its `op` alone. -/
theorem ofAssembleN {i : Instr} {op : BitVec 3} (he : encode i = some (assembleN op))
    (hd : ∀ w, cmdOp w = op → Sys2Proof.decode w = i) : Statement i := by
  intro _ w hw
  rw [he] at hw
  cases hw
  exact hd _ (by simp [assembleN])

/-- An instruction without a word has nothing to show. -/
theorem ofNone {i : Instr} (he : encode i = none) : Statement i := by
  intro _ w hw
  rw [he] at hw
  cases hw

theorem init : Statement .init := ofAssembleN rfl (fun _ => decode_init)

theorem openreq (presc sjw ts1 ts2 : Nat) (flags : Flags) : Statement (.openreq presc sjw ts1 ts2 flags) := by
  intro hwf w hw
  simp only [Instr.wf, fitsOperand, Bool.and_eq_true, decide_eq_true_eq] at hwf
  simp only [encode, Option.some.injEq] at hw
  subst hw
  simp only [Sys2Proof.decode, cmdOp_assemble, cmdPresc_assemble, cmdSjw_assemble, cmdTs1_assemble, cmdTs2_assemble,
    cmdFlags_assemble, BitVec.toNat_ofNat, Nat.mod_eq_of_lt hwf.1.1.1, Nat.mod_eq_of_lt hwf.1.1.2,
    Nat.mod_eq_of_lt hwf.1.2, Nat.mod_eq_of_lt hwf.2]
  rfl

theorem openCmd : Statement .openCmd := ofAssembleN rfl (fun _ => decode_openCmd)
theorem close : Statement .close := ofAssembleN rfl (fun _ => decode_close)
theorem poll : Statement .poll := ofAssembleN rfl (fun _ => decode_poll)
theorem reserved5 : Statement .reserved5 := ofAssembleN rfl (fun _ => decode_reserved5)
theorem reserved6 : Statement .reserved6 := ofAssembleN rfl (fun _ => decode_reserved6)
theorem reserved7 : Statement .reserved7 := ofAssembleN rfl (fun _ => decode_reserved7)
theorem validate (presc sjw ts1 ts2 : Nat) : Statement (.validate presc sjw ts1 ts2) := ofNone rfl
theorem pack (presc sjw ts1 ts2 : Nat) : Statement (.pack presc sjw ts1 ts2) := ofNone rfl
theorem unpack (w : Word) : Statement (.unpack w) := ofNone rfl
theorem decode (flags : Flags) : Statement (.decode flags) := ofNone rfl
theorem buildFilter : Statement .buildFilter := ofNone rfl
theorem irqEnable : Statement .irqEnable := ofNone rfl
theorem irqDisable : Statement .irqDisable := ofNone rfl
theorem teardown : Statement .teardown := ofNone rfl

end EncodedForm

end Sys2Proof.Laws
end

