-- ==== Sys2Proof/Laws/Lifecycle.lean ====
section
/-!
SUPPORT. Everything the hardware steps of OPEN and CLOSE can do, each as one case split over the answers.
-/

namespace Sys2Proof.Machine

variable {c : Config}

@[simp] theorem nthResult_withPtrace (s : State c) (t : List (Event c)) (k : Nat) :
    nthResult { s with ptrace := t } k = nthResult s k := rfl

@[simp] theorem dropResults_withPtrace (s : State c) (t : List (Event c)) (k : Nat) :
    dropResults k { s with ptrace := t } = { dropResults k s with ptrace := t } := rfl

/-- The rollback `P_DEINIT` and the raise. -/
theorem rollback_eq (e : Result) (s : State c) : rollback e s =
    .next { dropResults 1 s with res := e, ptrace := s.ptrace ++ [.deinit (nthResult s 0)] } := rfl

/-- OPEN lines 7 to 11. -/
theorem openStart_eq (s : State c) : openStart s =
    match nthResult s 0 with
    | .fail => .next { dropResults 2 s with
        res := .hardwareInitFailed, ptrace := s.ptrace ++ [.start .fail, .deinit (nthResult s 1)] }
    | .ok => .next { dropResults 1 s with
        state := .opened, ien := irqAll, res := .ok, ptrace := s.ptrace ++ (.start .ok :: (irqKinds c).map Event.irqEn) } := by
  simp only [openStart, pStart_eq]
  rcases result_cases (nthResult s 0) with h | h <;> rw [h]
  · simp [returnOk_eq, irqEnable_eq, setState]
  · simp only [rollback_eq, nthResult_withPtrace, dropResults_withPtrace, nthResult_dropResults, dropResults_dropResults,
      List.append_assoc, List.cons_append, List.nil_append, Nat.add_zero, Nat.reduceAdd]

/-- OPEN lines 5 to 11. -/
theorem openFilter_eq (p : PendingConfig c) (s : State c) : openFilter p s =
    match nthResult s 0 with
    | .fail => .next { dropResults 2 s with
        res := .filterConfigFailed, ptrace := s.ptrace ++ [.cfgFilter p.filter .fail, .deinit (nthResult s 1)] }
    | .ok => openStart { dropResults 1 s with ptrace := s.ptrace ++ [.cfgFilter p.filter .ok] } := by
  simp only [openFilter, pCfgFilter_eq]
  rcases result_cases (nthResult s 0) with h | h <;> rw [h]
  simp only [rollback_eq, nthResult_withPtrace, dropResults_withPtrace, nthResult_dropResults, dropResults_dropResults,
    List.append_assoc, List.cons_append, List.nil_append, Nat.add_zero, Nat.reduceAdd]

/-- OPEN lines 3 to 11. -/
theorem openInit_eq (p : PendingConfig c) (s : State c) : openInit p s =
    match nthResult s 0 with
    | .fail => .next { dropResults 1 s with
        res := .hardwareInitFailed, ptrace := s.ptrace ++ [.init p.mode p.timing p.art .fail] }
    | .ok => openFilter p { dropResults 1 s with ptrace := s.ptrace ++ [.init p.mode p.timing p.art .ok] } := by
  simp only [openInit, pInit_eq]
  rcases result_cases (nthResult s 0) with h | h <;> rw [h]
  rfl

/-- CLOSE's Open path after the interrupt bracket. -/
theorem closeFromOpen_eq (s : State c) : closeFromOpen s =
    .next { dropResults 1 s with
      state := .disabled, res := if nthResult s 0 = .fail then .deinitFailed else .ok,
      ptrace := s.ptrace ++ [.deinit (nthResult s 0)] } := by
  simp only [closeFromOpen, pDeinit_eq]
  rcases result_cases (nthResult s 0) with h | h <;> rw [h] <;> simp [raise_eq, returnOk_eq, setState]

/-! ### Inversion: everything a command that answers a next state can have done

Each lemma writes the next state as one record over `s`; `k` counts the answers taken, `ev` lists the events appended. -/

/-- `if STATE = 1 then TEARDOWN()` as one record. -/
theorem teardownIfOpen_cases (s : State c) :
    (s.state = .disabled ∧ teardownIfOpen s = s) ∨
    (s.state = .opened ∧ teardownIfOpen s =
      { dropResults 1 s with state := .disabled, ien := irqNone, ptrace := s.ptrace ++ teardownEvents s }) := by
  rcases state_cases s with h | h
  · exact .inl ⟨h, teardownIfOpen_disabled h⟩
  · exact .inr ⟨h, by rw [teardownIfOpen_opened h, teardown_eq]⟩

theorem execInit_cases {s t : State c} (h : execInit s = .next t) :
    t = { teardownIfOpen s with state := .disabled, pcfg := none, res := .ok } := by
  simpa [execInit, returnOk_eq, setPcfg, setState] using h.symm

theorem execOpenreq_cases {p j a b : Nat} {f : BitVec c.flagsW} {s t : State c} (h : execOpenreq p j a b f s = .next t) :
    (validate ⟨p, j, a, b⟩ c = false ∧ t = { s with res := .configurationOutOfRange }) ∨
    (validate ⟨p, j, a, b⟩ c = true ∧ decodeFlags f = .unsupported ∧ t = { s with res := .unsupportedMode }) ∨
    (∃ (hv : validate ⟨p, j, a, b⟩ c = true) (m : BitVec c.modeW) (art : Bool), decodeFlags f = .supported m art ∧
      t = { s with
        pcfg := some { timing := pack ⟨_, hv⟩, mode := m, art := art, filter := buildFilter c }, res := .ok }) := by
  unfold execOpenreq at h
  split at h
  · rename_i hv
    split at h
    · exact .inr (.inl ⟨hv, ‹_›, by simpa [raise_eq] using h.symm⟩)
    · exact .inr (.inr ⟨hv, _, _, ‹_›, by simpa [returnOk_eq, setPcfg] using h.symm⟩)
  · rename_i hv
    exact .inl ⟨by simpa using hv, by simpa [raise_eq] using h.symm⟩

/-- The four ways the hardware steps of OPEN can end. -/
theorem openInit_cases {p : PendingConfig c} {s t : State c} (h : openInit p s = .next t) :
    (nthResult s 0 = .fail ∧ t = { dropResults 1 s with
      res := .hardwareInitFailed, ptrace := s.ptrace ++ [.init p.mode p.timing p.art .fail] }) ∨
    (nthResult s 0 = .ok ∧ nthResult s 1 = .fail ∧ t = { dropResults 3 s with
      res := .filterConfigFailed,
      ptrace := s.ptrace ++ [.init p.mode p.timing p.art .ok, .cfgFilter p.filter .fail, .deinit (nthResult s 2)] }) ∨
    (nthResult s 0 = .ok ∧ nthResult s 1 = .ok ∧ nthResult s 2 = .fail ∧ t = { dropResults 4 s with
      res := .hardwareInitFailed,
      ptrace := s.ptrace ++ [.init p.mode p.timing p.art .ok, .cfgFilter p.filter .ok, .start .fail,
        .deinit (nthResult s 3)] }) ∨
    (nthResult s 0 = .ok ∧ nthResult s 1 = .ok ∧ nthResult s 2 = .ok ∧ t = { dropResults 3 s with
      state := .opened, ien := irqAll, res := .ok,
      ptrace := s.ptrace ++ ([.init p.mode p.timing p.art .ok, .cfgFilter p.filter .ok, .start .ok] ++
        (irqKinds c).map Event.irqEn) }) := by
  rcases h0 : nthResult s 0 <;> rcases h1 : nthResult s 1 <;> rcases h2 : nthResult s 2 <;>
    simp only [openInit_eq, openFilter_eq, openStart_eq, nthResult_withPtrace, dropResults_withPtrace,
      nthResult_dropResults, dropResults_dropResults, h0, h1, h2, Nat.add_zero, Nat.reduceAdd, List.append_assoc,
      List.cons_append, List.nil_append, Host.Outcome.next.injEq] at h <;>
    simp [← h]

theorem execOpen_cases {s t : State c} (h : execOpen s = .next t) :
    (s.pcfg = none ∧ t = { s with res := .notConfigured }) ∨
    (∃ p, s.pcfg = some p ∧ openInit p (teardownIfOpen s) = .next t) := by
  cases hc : s.pcfg with
  | none => exact .inl ⟨rfl, by simpa [execOpen, hc, raise_eq] using h.symm⟩
  | some c => exact .inr ⟨c, rfl, by simpa [execOpen, hc] using h⟩

theorem execClose_cases {s t : State c} (h : execClose s = .next t) :
    (s.state = .disabled ∧ t = { s with
      ien := irqNone, res := .ok, ptrace := s.ptrace ++ (irqKinds c).map Event.irqDis }) ∨
    (s.state = .opened ∧ t = { dropResults 1 s with
      state := .disabled, ien := irqNone, res := if nthResult s 0 = .fail then .deinitFailed else .ok,
      ptrace := s.ptrace ++ teardownEvents s }) := by
  rcases state_cases s with hs | hs
  · exact .inl ⟨hs, by simpa [execClose, hs, returnOk_eq, irqDisable_eq] using h.symm⟩
  · simp only [execClose, hs, closeFromOpen_eq, irqDisable_eq, Host.Outcome.next.injEq] at h
    refine .inr ⟨hs, ?_⟩
    rw [← h, List.append_assoc]
    rfl

theorem execPoll_cases {s t : State c} (h : execPoll s = .next t) :
    (s.state = .disabled ∧ t = { s with count := 0, res := .ok }) ∨
    (s.state = .opened ∧ t = { dropDepth s with
      count := nextDepth s, res := .ok, ptrace := s.ptrace ++ [.rxDepth c.qPrimary (nextDepth s)] }) := by
  rcases state_cases s with hs | hs
  · exact .inl ⟨hs, by simpa [execPoll, hs, returnOk_eq, setCount] using h.symm⟩
  · exact .inr ⟨hs, by simpa [execPoll, hs, returnOk_eq, setCount, pRxDepth_eq] using h.symm⟩

/-- A step of the block, for any record: idle, or one of the five commands on the state without the word. -/
theorem stepWith_cases {s t : State c} (h : stepWith s = .next t) :
    (s.port = [] ∧ t = s) ∨
    (∃ w rest, s.port = w :: rest ∧
      let s' : State c := { s with port := rest }
      (commandOf c (cmdOpWith c w).toNat = .init ∧ execInit s' = .next t) ∨
      (commandOf c (cmdOpWith c w).toNat = .openreq ∧ ∃ p j a b f, execOpenreq p j a b f s' = .next t) ∨
      (commandOf c (cmdOpWith c w).toNat = .openCmd ∧ execOpen s' = .next t) ∨
      (commandOf c (cmdOpWith c w).toNat = .close ∧ execClose s' = .next t) ∨
      (commandOf c (cmdOpWith c w).toNat = .poll ∧ execPoll s' = .next t)) := by
  unfold stepWith at h
  cases hp : s.port with
  | nil => exact .inl ⟨rfl, by simpa [hp] using h.symm⟩
  | cons w rest =>
    simp only [hp, accept] at h
    refine .inr ⟨w, rest, rfl, ?_⟩
    cases hc : commandOf c (cmdOpWith c w).toNat <;> simp only [hc] at h
    · exact .inl ⟨rfl, h⟩
    · exact .inr (.inl ⟨rfl, _, _, _, _, _, h⟩)
    · exact .inr (.inr (.inl ⟨rfl, h⟩))
    · exact .inr (.inr (.inr (.inl ⟨rfl, h⟩)))
    · exact .inr (.inr (.inr (.inr ⟨rfl, h⟩)))
    · cases h

/-- A step either leaves the idle block as it is or runs one of the five commands on the state without the word. -/
theorem step_cases {s t : State} (h : step s = .next t) :
    (s.port = [] ∧ t = s) ∨
    (∃ w rest, s.port = w :: rest ∧
      let s' : State := { s with port := rest }
      (decode w = .init ∧ execInit s' = .next t) ∨
      (∃ p j a b f, decode w = .openreq p j a b f ∧ execOpenreq p j a b f s' = .next t) ∨
      (decode w = .openCmd ∧ execOpen s' = .next t) ∨
      (decode w = .close ∧ execClose s' = .next t) ∨
      (decode w = .poll ∧ execPoll s' = .next t)) := by
  unfold step at h
  cases hp : s.port with
  | nil => exact .inl ⟨rfl, by simpa [hp] using h.symm⟩
  | cons w rest =>
    simp only [hp] at h
    refine .inr ⟨w, rest, rfl, ?_⟩
    rcases Laws.op_cases (cmdOp w) with ho | ho | ho | ho | ho | ho | ho | ho
    · exact .inl ⟨Laws.decode_init ho, by simpa [Laws.decode_init ho, exec] using h⟩
    · exact .inr (.inl ⟨_, _, _, _, _, Laws.decode_openreq ho, by simpa only [Laws.decode_openreq ho, exec] using h⟩)
    · exact .inr (.inr (.inl ⟨Laws.decode_openCmd ho, by simpa [Laws.decode_openCmd ho, exec] using h⟩))
    · exact .inr (.inr (.inr (.inl ⟨Laws.decode_close ho, by simpa [Laws.decode_close ho, exec] using h⟩)))
    · exact .inr (.inr (.inr (.inr ⟨Laws.decode_poll ho, by simpa [Laws.decode_poll ho, exec] using h⟩)))
    · rw [Laws.decode_reserved5 ho] at h; cases h
    · rw [Laws.decode_reserved6 ho] at h; cases h
    · rw [Laws.decode_reserved7 ho] at h; cases h

end Sys2Proof.Machine
end

