-- ==== Sys2Proof/Laws/Timing.lean ====
section
/-!
SUPPORT. The bit-timing unit and DECODE in plain arithmetic: what VALIDATE's Bool says, the reserved mask, UNPACK's
fields.
-/

namespace Sys2Proof.Machine

@[simp] theorem cfg_prescMax : cfg.prescMax = 1023 := by decide

/-- VALIDATE's Bool is the conjunction of the four ranges (40_bittiming.md R92), for every record. -/
theorem validate_ranges (c : Config) (p j a b : Nat) : validate ⟨p, j, a, b⟩ c = true ↔
    ((1 ≤ p ∧ p ≤ c.prescMax) ∧ (1 ≤ j ∧ j ≤ 4) ∧ (1 ≤ a ∧ a ≤ 16) ∧ (1 ≤ b ∧ b ≤ 8)) := by
  simp only [validate, Bool.and_eq_true, decide_eq_true_eq]
  simp only [prescMin, sjwMin, sjwMax, ts1Min, ts1Max, ts2Min, ts2Max, and_assoc]

/-- The same at the decided record. -/
theorem validate_iff (p j a b : Nat) : validate ⟨p, j, a, b⟩ = true ↔
    ((1 ≤ p ∧ p ≤ 1023) ∧ (1 ≤ j ∧ j ≤ 4) ∧ (1 ≤ a ∧ a ≤ 16) ∧ (1 ≤ b ∧ b ≤ 8)) := by
  rw [validate_ranges, cfg_prescMax]

/-- The size of a timing word and of a flag word at the decided record, for arithmetic. -/
theorem word_lt (w : Word) : w.toNat < 2 ^ 32 := w.isLt
theorem flags_lt (f : Flags) : f.toNat < 2 ^ 32 := f.isLt

/-- The reserved bits at the decided record: 31:26, 19, 15:10 (10_state.md R25). -/
@[simp] theorem reservedTimingBits_cfg : reservedTimingBits = 0xFC08FC00 := by decide

/-- A well-formed word in terms of its bits (R95). -/
theorem wellFormedWord_iff (w : Word) :
    wellFormedWord w = true ↔ (w &&& 0xFC08FC00 = 0 ∧ w.extractLsb' 0 10 ≠ 0) := by
  simp only [wellFormedWord, Bool.and_eq_true, decide_eq_true_eq, reservedTimingBits_cfg]

/-- UNPACK reads these four fields (R95). -/
theorem unpack_fields (w : Word) : unpack w =
    ⟨(w.extractLsb' 0 10).toNat, (w.extractLsb' 24 2).toNat + 1, (w.extractLsb' 20 4).toNat + 1,
      (w.extractLsb' 16 3).toNat + 1⟩ := rfl

/-- The supported mask of the decided configuration (30_encoding.md R75). -/
@[simp] theorem supportedMask_cfg : supportedMask = 0x0000000B := by decide

end Sys2Proof.Machine
end

