-- ==== Sys2Proof/Tests/Slice0.lean ====
section
/-!
SUPPORT. Tests of single steps against the vectors of spec/95_test_vectors.md (V1 to V12, the scenarios and programs), the
well-formedness smoke, written-out words, and one witness for every hypothesis of the statements. Every expected value is
from the spec's tables.
-/

namespace Sys2Proof.Tests

open Sys2Proof Sys2Proof.Machine

/-! ## Well-formedness: an ill-formed term for each check, one past the largest operand (R74) -/

theorem test_wf_openreq : (Instr.openreq (2 ^ 32) 1 1 1 0).wf = false ∧ (Instr.openreq 1 (2 ^ 32) 1 1 0).wf = false ∧
    (Instr.openreq 1 1 (2 ^ 32) 1 0).wf = false ∧ (Instr.openreq 1 1 1 (2 ^ 32) 0).wf = false ∧
    (Instr.openreq (2 ^ 32 - 1) 0 0 (2 ^ 32 - 1) 0).wf = true := by decide

theorem test_wf_validate : (Instr.validate (2 ^ 32) 1 1 1).wf = false ∧ (Instr.validate 1 (2 ^ 32) 1 1).wf = false ∧
    (Instr.validate 1 1 (2 ^ 32) 1).wf = false ∧ (Instr.validate 1 1 1 (2 ^ 32)).wf = false := by decide

theorem test_wf_pack : (Instr.pack (2 ^ 32) 1 1 1).wf = false ∧ (Instr.pack 1 (2 ^ 32) 1 1).wf = false ∧
    (Instr.pack 1 1 (2 ^ 32) 1).wf = false ∧ (Instr.pack 1 1 1 (2 ^ 32)).wf = false := by decide

/-! ## Configuration: the decided values meet the spec's constraints (R8, D2, D5, D6) -/

theorem test_config_constraints : cfg.TimingOk ∧ cfg.FlagsOk ∧ cfg.CodesOk ∧ cfg.prescMax = 1023 ∧ supportedMask = 0x0000000B := by
  decide

/-- The reserved bits of R25 (31:26, 19, 15:10), computed from the layout; the width of R71; the codes of `PCFG.ART` (R27). -/
theorem test_config_derived : reservedTimingBits = 0xFC08FC00 ∧ cfg.cmdW = 163 ∧
    (⟨0, 0, true, buildFilter⟩ : PendingConfig).artBit = 1 ∧ (⟨0, 0, false, buildFilter⟩ : PendingConfig).artBit = 0 := by
  decide

/-- The five named unsupported positions of R75 are outside the mask. -/
theorem test_unsupported_positions :
    [flag3Samples, flagBerr, flagFd, flagPresumeAck, flagFdNonIso] = [2, 4, 5, 6, 7] ∧
    [flag3Samples, flagBerr, flagFd, flagPresumeAck, flagFdNonIso].all (fun k => !flagBit supportedMask k) := by decide

/-! ## Decoding: words written out from R71 and R72 -/

theorem test_decode_init : decode 0x0_00000000_00000000_00000000_00000000_00000000#163 = .init := by decide
/-- Program 5 line 3. -/
theorem test_decode_openreq :
    decode 0x1_00000006_00000001_0000000d_00000002_0000000b#163 = .openreq 6 1 13 2 0xB := by decide
/-- V12: the ignored bits of format `N`. -/
theorem test_decode_open : decode 0x2_deadbeef_00000001_00000002_00000003_ffffffff#163 = .openCmd := by decide
theorem test_decode_close : decode 0x3_00000000_00000000_00000000_00000000_00000000#163 = .close := by decide
theorem test_decode_poll : decode 0x4_00000000_00000000_00000000_00000000_00000000#163 = .poll := by decide
theorem test_decode_reserved : decode 0x5_00000000_00000000_00000000_00000000_00000000#163 = .reserved5 ∧
    decode 0x6_00000000_00000000_00000000_00000000_00000000#163 = .reserved6 ∧
    decode 0x7_ffffffff_ffffffff_ffffffff_ffffffff_ffffffff#163 = .reserved7 := by decide

/-- Scenario B as 21 little-endian bytes (R55, D14), written out byte by byte, with one byte after it. -/
theorem test_decode_bytes :
    decodeBytes [0x08, 0, 0, 0, 0x03, 0, 0, 0, 0x0a, 0, 0, 0, 0x01, 0, 0, 0, 0x03, 0, 0, 0, 0x01, 0xEE]
      = .ok (.openreq 3 1 10 3 0x8, [0xEE]) := by rfl
theorem test_decode_truncated : decodeBytes (List.replicate 20 0) = .error .truncated := by rfl
theorem test_decode_too_wide : decodeBytes (List.replicate 20 0 ++ [0x08]) = .error .tooWide := by rfl
/-- Words numbered as the opcode table numbers them; a unit row has no bits. -/
theorem test_table_word : decodeTableWord 168 (4 * 2 ^ 160) = some .poll ∧ decodeTableWord 168 (8 * 2 ^ 160) = none ∧
    decodeTableWord 0 0 = none := by decide
/-- Program 6 line 1. -/
theorem test_encode_openreq :
    encode (.openreq 1023 4 16 8 0x9) = some 0x1_000003ff_00000004_00000010_00000008_00000009#163 := by decide

/-! ## States of the spec's programs -/

/-- The filter record `F` of 95_test_vectors.md, written out. -/
def recF : Filter := { id := 0, mask := 0, scale := 1, mode := 0, queue := 0, bank := 0, active := 1 }
/-- Scenario A's staged record. -/
def recA : PendingConfig := { timing := 0x00920003, mode := 0b00, art := true, filter := recF }
def e5 : List Event :=
  [.irqEn .errorWarning, .irqEn .errorPassive, .irqEn .busOff, .irqEn .lastErrorCode, .irqEn .genericError]
def d5 : List Event :=
  [.irqDis .errorWarning, .irqDis .errorPassive, .irqDis .busOff, .irqDis .lastErrorCode, .irqDis .genericError]
/-- Program 1's events of line 3. -/
def openEvents : List Event := [.init 0b00 0x00920003 true .ok, .cfgFilter recF .ok, .start .ok] ++ e5
/-- Disabled with scenario A staged, and the peripheral's next answers. -/
def staged (answers : List PResult) : State := { State.reset with pcfg := some recA, answers := answers }
/-- The state after program 1 line 3, and the peripheral's next answers and depths. -/
def live (answers : List PResult) (depths : List Count) : State :=
  { State.reset with state := .opened, pcfg := some recA, ien := 0b11111, ptrace := openEvents, answers := answers,
                     depths := depths }

/-- What a vector row shows: `(STATE, STAGED, IEN, RES, COUNT)` and `PTRACE`. -/
structure Row where
  state : BitVec 1
  staged : Bool
  ien : IrqMask
  res : BitVec 3
  count : Count
  ptrace : List Event
  deriving DecidableEq, Repr
/-- The row of an outcome that is a next state. -/
def shown : Out → Option Row
  | .next t => some ⟨t.state.bit, t.staged, ienOut t, resOut t, countOut t, t.ptrace⟩
  | _ => none
/-- The staged record of an outcome. -/
def stagedOf : Out → Option PendingConfig
  | .next t => t.pcfg
  | _ => none
/-- The latched unit result of an outcome. -/
def unitOf : Out → Option UnitResult
  | .next t => some t.unitOut
  | _ => none

/-! ## Unit operations (V1 to V7) -/

theorem test_validate_bounds : unitOf (exec (.validate 1023 4 16 8) .reset) = some (.valid true) ∧
    unitOf (exec (.validate 1024 1 10 3) .reset) = some (.valid false) := by decide
/-- V2: no operand is reduced to its field. -/
theorem test_validate_rejects : [(0, 1, 10, 3), (1027, 1, 10, 3), (0xFFFFFFFF, 1, 10, 3), (3, 0, 10, 3), (3, 5, 10, 3),
    (3, 257, 10, 3), (3, 1, 0, 3), (3, 1, 17, 3), (3, 1, 10, 0), (3, 1, 10, 9), (3, 16, 10, 16)].all
    (fun (p, j, a, b) => !validate ⟨p, j, a, b⟩) := by decide
theorem test_pack : unitOf (exec (.pack 3 1 10 3) .reset) = some (.word 0x00920003) ∧
    unitOf (exec (.pack 512 3 8 4) .reset) = some (.word 0x02730200) := by decide
theorem test_pack_corners : unitOf (exec (.pack 1 1 1 1) .reset) = some (.word 0x00000001) ∧
    unitOf (exec (.pack 1023 4 16 8) .reset) = some (.word 0x03F703FF) ∧
    unitOf (exec (.pack 1 1 1 8) .reset) = some (.word 0x00070001) := by decide
theorem test_unpack : unitOf (exec (.unpack 0x00920003) .reset) = some (.timing ⟨3, 1, 10, 3⟩) ∧
    unitOf (exec (.unpack 0x02730200) .reset) = some (.timing ⟨512, 3, 8, 4⟩) := by decide
/-- V3. -/
theorem test_unpack_ill_formed : unpack (0x00000000 : Word) = ⟨0, 1, 1, 1⟩ ∧ unpack (0xFFFFFFFF : Word) = ⟨1023, 4, 16, 8⟩ ∧
    unpack (0x00080001 : Word) = ⟨1, 1, 1, 1⟩ := by decide
theorem test_decode_flags : unitOf (exec (.decode 0x0000000A) .reset) = some (.mode (.supported 0b10 false)) ∧
    unitOf (exec (.decode 0x00000001) .reset) = some (.mode (.supported 0b01 true)) := by decide
theorem test_decode_flags_rejects :
    ([0x4, 0x10, 0x20, 0x40, 0x80, 0xF, 0x100, 0x80000000, 0xFFFFFFFF] : List Flags).all
      (fun f => decodeFlags f = .unsupported) := by decide
theorem test_build_filter : unitOf (exec .buildFilter .reset) = some (.filter recF) ∧
    recF.bits = 0x00000000_00000000_81#72 := by decide
theorem test_irq_enable : shown (exec .irqEnable .reset) = some ⟨0, false, 0b11111, 0, 0, e5⟩ := by decide
/-- The five calls are made even when all are disabled. -/
theorem test_irq_disable : shown (exec .irqDisable (live [] [])) = some ⟨1, true, 0b00000, 0, 0, openEvents ++ d5⟩ ∧
    shown (exec .irqDisable .reset) = some ⟨0, false, 0b00000, 0, 0, d5⟩ := by decide
theorem test_teardown : shown (exec .teardown (live [.fail] [])) =
    some ⟨0, true, 0b00000, 0, 0, openEvents ++ d5 ++ [.deinit .fail]⟩ := by decide

/-! ## Commands (V5, V8 to V12) -/

theorem test_init_disabled : shown (exec .init (staged [])) = some ⟨0, false, 0b00000, 0, 0, []⟩ ∧
    stagedOf (exec .init (staged [])) = none := by decide
theorem test_init_open : shown (exec .init (live [.fail] [])) =
    some ⟨0, false, 0b00000, 0, 0, openEvents ++ d5 ++ [.deinit .fail]⟩ := by decide
/-- Program 5 line 3. -/
theorem test_openreq : stagedOf (exec (.openreq 6 1 13 2 0xB) (live [] [])) = some ⟨0x00C10006, 0b11, false, recF⟩ ∧
    shown (exec (.openreq 6 1 13 2 0xB) (live [] [])) = some ⟨1, true, 0b11111, 0, 0, openEvents⟩ := by decide
/-- V5, and the earlier record is kept (D20). -/
theorem test_openreq_errors : shown (exec (.openreq 1024 1 10 3 0x10) (staged [])) = some ⟨0, true, 0, 6, 0, []⟩ ∧
    shown (exec (.openreq 3 1 10 3 0x4) (staged [])) = some ⟨0, true, 0, 5, 0, []⟩ ∧
    stagedOf (exec (.openreq 3 1 10 3 0x4) (staged [])) = some recA := by decide
/-- V9, rows 1 to 6: from Disabled. -/
theorem test_open_disabled : shown (exec .openCmd .reset) = some ⟨0, false, 0, 4, 0, []⟩ ∧
    shown (exec .openCmd (staged [.fail])) = some ⟨0, true, 0, 1, 0, [.init 0 0x00920003 true .fail]⟩ ∧
    shown (exec .openCmd (staged [.ok, .fail, .fail])) = some ⟨0, true, 0, 2, 0,
      [.init 0 0x00920003 true .ok, .cfgFilter recF .fail, .deinit .fail]⟩ ∧
    shown (exec .openCmd (staged [.ok, .ok, .fail, .ok])) = some ⟨0, true, 0, 1, 0,
      [.init 0 0x00920003 true .ok, .cfgFilter recF .ok, .start .fail, .deinit .ok]⟩ ∧
    shown (exec .openCmd (staged [.ok, .ok, .ok])) = some ⟨1, true, 0b11111, 0, 0, openEvents⟩ := by decide
/-- V9, rows 8, 9 and 11: from Open. -/
theorem test_open_open : shown (exec .openCmd (live [.fail, .ok, .ok, .ok] [])) =
      some ⟨1, true, 0b11111, 0, 0, openEvents ++ d5 ++ [.deinit .fail] ++ openEvents⟩ ∧
    shown (exec .openCmd (live [.ok, .fail] [])) = some ⟨0, true, 0, 1, 0,
      openEvents ++ d5 ++ [.deinit .ok, .init 0 0x00920003 true .fail]⟩ ∧
    shown (exec .openCmd (live [.ok, .ok, .ok, .fail, .ok] [])) = some ⟨0, true, 0, 1, 0, openEvents ++ d5 ++
      [.deinit .ok, .init 0 0x00920003 true .ok, .cfgFilter recF .ok, .start .fail, .deinit .ok]⟩ := by decide
theorem test_close_disabled : shown (exec .close .reset) = some ⟨0, false, 0, 0, 0, d5⟩ := by decide
theorem test_close_open :
    shown (exec .close (live [.ok] [])) = some ⟨0, true, 0, 0, 0, openEvents ++ d5 ++ [.deinit .ok]⟩ ∧
    shown (exec .close (live [.fail] [])) = some ⟨0, true, 0, 3, 0, openEvents ++ d5 ++ [.deinit .fail]⟩ := by decide
/-- P3: with `COUNT = 7` from before. -/
theorem test_poll_disabled : shown (exec .poll { State.reset with count := 7, depths := [5] }) =
    some ⟨0, false, 0, 0, 0, []⟩ := by decide
theorem test_poll_open : shown (exec .poll (live [] [0xFFFFFFFF])) =
      some ⟨1, true, 0b11111, 0, 0xFFFFFFFF, openEvents ++ [.rxDepth 0 0xFFFFFFFF]⟩ ∧
    shown (exec .poll (live [] [2, 9])) = some ⟨1, true, 0b11111, 0, 2, openEvents ++ [.rxDepth 0 2]⟩ := by decide
/-- V12, for every state. -/
theorem test_reserved (s : State) : exec .reserved5 s = .refused (.reservedCommand 5) ∧
    exec .reserved6 s = .refused (.reservedCommand 6) ∧ exec .reserved7 s = .refused (.reservedCommand 7) :=
  ⟨rfl, rfl, rfl⟩
/-- One step on the word of program 1 line 3 as the caller presents it. -/
theorem test_step : shown (step ((staged [.ok, .ok, .ok]).withFetchWord 168 (2 * 2 ^ 160))) =
    some ⟨1, true, 0b11111, 0, 0, openEvents⟩ := by decide

/-! ## Witnesses: a concrete input for the hypotheses of every statement that has them -/

/-- CommandWordIsReadByItsFields: each op value, at the largest operands. -/
theorem witness_command_word : ∀ op : BitVec 3, op = 0 ∨ op = 1 ∨ op = 2 ∨ op = 3 ∨ op = 4 ∨ op = 5 ∨ op = 6 ∨ op = 7 := by
  decide
/-- IgnoredBitsChangeNothing: two words of V12 that differ in the ignored bits only. -/
theorem witness_ignored_bits : let w : Cmd := 0x2_deadbeef_00000001_00000002_00000003_ffffffff#163
    let w' : Cmd := 0x2_00000000_00000000_00000000_00000000_00000000#163
    w ≠ w' ∧ w.extractLsb' 160 3 = w'.extractLsb' 160 3 ∧ w.extractLsb' 160 3 ≠ 1 := by decide
/-- DecodeInvertsEncode and CommandBytesRoundTrip: the largest operands. -/
theorem witness_encode : (Instr.openreq 0xFFFFFFFF 0xFFFFFFFF 0 0xFFFFFFFF 0xFFFFFFFF).wf = true ∧
    encode (.openreq 0xFFFFFFFF 0xFFFFFFFF 0 0xFFFFFFFF 0xFFFFFFFF) =
      some 0x1_ffffffff_ffffffff_00000000_ffffffff_ffffffff#163 ∧
    (encodeBytes (.openreq 0xFFFFFFFF 0xFFFFFFFF 0 0xFFFFFFFF 0xFFFFFFFF)).isSome = true := by decide
/-- EncodeInvertsDecode: a word with op 1. -/
theorem witness_openreq_word :
    (0x1_ffffffff_ffffffff_00000000_ffffffff_ffffffff#163).extractLsb' 160 3 = 1 := by decide
/-- UnitOperationsHaveNoEncoding. -/
theorem witness_unit : [Instr.validate 3 1 10 3, .pack 3 1 10 3, .unpack 0, .decode 0, .buildFilter, .irqEnable,
    .irqDisable, .teardown].all Instr.isUnit := by decide
/-- ReservedCodesAreRefused: the three codes. -/
theorem witness_reserved : ∀ op ∈ [5, 6, 7], (5 : BitVec 3) ≤ op ∧ (assembleN op).extractLsb' 160 3 = op := by decide
/-- StepRunsTheDecodedCommand: a presented command, and an idle block. -/
theorem witness_step : Instr.poll.wf = true ∧ encode .poll = some (assembleN 4) ∧
    (State.reset.withFetchWord 168 (4 * 2 ^ 160)).port = assembleN 4 :: [] ∧ State.reset.port = [] := by decide
/-- PackPlacesTheFields, OpenreqStagesOrReports: the smallest and the largest valid operands. -/
theorem witness_valid : validate ⟨1, 1, 1, 1⟩ = true ∧ validate ⟨1023, 4, 16, 8⟩ = true := by decide
/-- PackStopsOffItsPrecondition, OpenreqStagesOrReports: one past each end of each range. -/
theorem witness_invalid : [(0, 1, 1, 1), (1024, 1, 1, 1), (1, 0, 1, 1), (1, 5, 1, 1), (1, 1, 0, 1), (1, 1, 17, 1),
    (1, 1, 1, 0), (1, 1, 1, 9)].all (fun (p, j, a, b) =>
      !((1 ≤ p ∧ p ≤ 1023) ∧ (1 ≤ j ∧ j ≤ 4) ∧ (1 ≤ a ∧ a ≤ 16) ∧ (1 ≤ b ∧ b ≤ 8) : Bool) && !validate ⟨p, j, a, b⟩) := by
  decide
/-- UnpackReadsTheFields, PackIsALosslessBijection: the smallest and the largest well-formed word. -/
theorem witness_well_formed_word : wellFormedWord (0x00000001 : Word) = true ∧ wellFormedWord (0x03F703FF : Word) = true ∧
    (0x03F703FF : Word) &&& 0xFC08FC00 = 0 ∧ (0x03F703FF : Word).extractLsb' 0 10 ≠ 0 := by decide
/-- PackIsALosslessBijection: two valid inputs with one word are one input. -/
theorem witness_equal_packs : pack (c := cfg) ⟨⟨1, 4, 16, 8⟩, by decide⟩ = pack ⟨⟨1, 4, 16, 8⟩, by decide⟩ := rfl
/-- EveryAllowedLayoutRoundTrips: the decided layout, and one that fills its word to the last bit. -/
theorem witness_layouts : cfg.TimingOk ∧ validate ⟨1023, 4, 16, 8⟩ = true ∧
    ({ cfg with wordW := 19, sjwOff := 17, ts1Off := 13, ts2Off := 10 } : Config).TimingOk := by decide
/-- AnyOtherFlagIsUnsupported, EveryFlagLayoutDecodes: the lowest and the highest unsupported bit. -/
theorem witness_other_flags : (0x4 : Flags).getLsbD 2 = true ∧ (0x80000000 : Flags).getLsbD 31 = true ∧
    decodeFlags (0x4 : Flags) = .unsupported ∧ decodeFlags (0x80000000 : Flags) = .unsupported := by decide
/-- DecodeTableIsOneToOne, ModeAndRetransmissionAreIndependent. -/
theorem witness_supported : decodeFlags (0x0 : Flags) = .supported 0b00 true ∧ decodeFlags (0xB : Flags) = .supported 0b11 false := by decide
/-- EveryFlagLayoutDecodes: the decided positions, with all three flags set and no other, and swapped sub-mode bits. -/
theorem witness_flag_layouts : cfg.FlagsOk ∧ ({ cfg with flagSilent := 31, modeLoopback := 1, modeSilent := 0 } : Config).FlagsOk ∧
    ∀ k, k < 32 → (0xB : Flags).getLsbD k = true → k = cfg.flagLoopback ∨ k = cfg.flagSilent ∨ k = cfg.flagOneshot := by
  decide
/-- InitAlwaysSucceeds, CloseDisablesThenDeinitializes, PollGuardsTheHardware, StateFollowsTheTransitionTable: both
states. -/
theorem witness_both_states : (staged []).state = .disabled ∧ (live [] []).state = .opened ∧
    (live [] []).staged = true := by decide
/-- OpenreqStagesOrReports, StagedOperandsAreRecoverable, OpenUsesTheLatestRequest: valid operands with unsupported and with supported flags. -/
theorem witness_openreq : validate ⟨3, 1, 10, 3⟩ = true ∧ decodeFlags (0x10 : Flags) = .unsupported ∧
    decodeFlags (0x8 : Flags) = .supported 0b00 false ∧ (0x8 : Flags) &&& ~~~0x0000000B = 0 ∧
    validate ⟨3, 0, 10, 3⟩ = false := by decide
/-- OpenFollowsItsLines: each row, from Disabled (d = 0) and from Open (d = 1). -/
theorem witness_open_rows : State.reset.staged = false ∧ (staged []).pcfg = some recA ∧ (live [] []).pcfg = some recA ∧
    nthResult (staged [.fail]) 0 = .fail ∧
    (nthResult (staged [.ok, .fail]) 0 = .ok ∧ nthResult (staged [.ok, .fail]) 1 = .fail) ∧
    (nthResult (live [.fail, .ok, .ok, .fail] []) 1 = .ok ∧ nthResult (live [.fail, .ok, .ok, .fail] []) 2 = .ok ∧
      nthResult (live [.fail, .ok, .ok, .fail] []) 3 = .fail) ∧
    (nthResult (live [.fail, .ok, .ok, .ok] []) 1 = .ok ∧ nthResult (live [.fail, .ok, .ok, .ok] []) 2 = .ok ∧
      nthResult (live [.fail, .ok, .ok, .ok] []) 3 = .ok) := by decide
/-- StateFollowsTheTransitionTable, CommandsWriteOnlyTheirRegisters, OutputsAndHistoryAreNeverRead, SecondCloseMakesNoDeinit: each
command answers a next state, from Disabled and from Open. -/
theorem witness_next : [Instr.init, .openreq 3 1 10 3 0x8, .openreq 0 0 0 0 0x4, .openCmd, .close, .poll].all (fun i =>
    (shown (exec i (staged [.ok, .ok, .ok]))).isSome && (shown (exec i (live [.ok, .ok, .ok, .ok] [3]))).isSome) := by decide
/-- StepKeepsTheInvariant, IenIsWhatTheTraceAskedFor, StagedRecordInvariants, InterruptsEnabledExactlyWhileOpen,
AStepMakesAtMostFourteenCalls: a good open state whose presented OPEN gives a next state. -/
theorem witness_inv_step : let s := (live [.ok, .ok, .ok, .ok] []).withFetchWord 168 (2 * 2 ^ 160)
    Inv s ∧ (shown (step s)).isSome = true := by decide
/-- The same from a staged Disabled state; reset itself is `ResetMeetsTheInvariant`. -/
theorem witness_inv_staged : Inv (staged []) ∧ (staged []).staged = true := by decide
/-- StagedRecordInvariants, third clause: a staged record with the least prescaler and the largest one. -/
theorem witness_staged_words : recA.timing &&& 0xFC08FC00 = 0 ∧ 1 ≤ (recA.timing.extractLsb' 0 10).toNat ∧
    (0x03F703FF : Word) &&& 0xFC08FC00 = 0 ∧ 1 ≤ ((0x00000001 : Word).extractLsb' 0 10).toNat := by decide
/-- A good state whose trace shows two P_DEINIT with a P_INIT between, two P_INIT with a P_DEINIT between, P_CFGFILTER,
P_START and an interrupt-free hardware step: program 1 run twice up to its CLOSE. -/
def closedTwice : State :=
  { State.reset with pcfg := some recA,
                     ptrace := openEvents ++ (d5 ++ .deinit .ok :: (openEvents ++ (d5 ++ [.deinit .ok]))) }
/-- TracePropertiesHold (a) to (d), InterruptsEnabledExactlyWhileOpen's last clause. -/
theorem witness_trace : Inv closedTwice ∧
    closedTwice.ptrace = (openEvents ++ d5) ++ .deinit .ok :: ((openEvents ++ d5) ++ .deinit .ok :: []) ∧
    closedTwice.ptrace = [] ++ .init 0b00 0x00920003 true .ok ::
      (((openEvents ++ d5).tail ++ [.deinit .ok]) ++ .init 0b00 0x00920003 true .ok ::
        ([.cfgFilter recF .ok, .start .ok] ++ e5 ++ d5 ++ [.deinit .ok])) ∧
    closedTwice.ptrace = [.init 0b00 0x00920003 true .ok] ++ .cfgFilter recF .ok ::
      ((openEvents.drop 2) ++ d5 ++ .deinit .ok :: (openEvents ++ d5 ++ [.deinit .ok])) ∧
    closedTwice.ptrace = (openEvents.take 2) ++ .start .ok :: (e5 ++ d5 ++ .deinit .ok :: (openEvents ++ d5 ++ [.deinit .ok])) ∧
    (Event.deinit .ok : Event).isHardwareStep = true := by decide
/-- TracePropertiesHold (e) to (g): a step of POLL that queries, and of OPEN that enables, with the events of each. -/
theorem witness_step_events :
    shown (step ((live [] [2]).withFetchWord 168 (4 * 2 ^ 160))) =
      some ⟨1, true, 0b11111, 0, 2, openEvents ++ [.rxDepth 0 2]⟩ ∧
    (Event.rxDepth 0 2 : Event).isRxDepth = true ∧ (e5.all Event.isIrqEn) = true ∧
    decode (assembleN 0) = .init ∧ decode (assembleN 2) = .openCmd ∧ decode (assembleN 4) = .poll ∧
    decode (assemble 1 3 1 10 3 8) = .openreq 3 1 10 3 8 ∧ State.reset.staged = false := by decide
/-- ResultsFollowTheErrorTable: each error is raised from a state that meets R36's invariant. -/
theorem witness_results : IrqInv (staged [.fail]) ∧ IrqInv (live [.fail] []) ∧
    resOut (staged []) = 0 ∧
    (shown (exec .openCmd (staged [.fail]))).map (fun v => v.res) = some 1 ∧
    (shown (exec .openCmd (staged [.ok, .ok, .fail, .ok]))).map (fun v => v.res) = some 1 ∧
    (shown (exec .openCmd (staged [.ok, .fail, .ok]))).map (fun v => v.res) = some 2 ∧
    (shown (exec .close (live [.fail] []))).map (fun v => v.res) = some 3 ∧
    (shown (exec .openCmd .reset)).map (fun v => v.res) = some 4 ∧
    (shown (exec (.openreq 3 1 10 3 0x4) .reset)).map (fun v => v.res) = some 5 ∧
    (shown (exec (.openreq 0 1 10 3 0x4) .reset)).map (fun v => v.res) = some 6 := by decide
/-- Another record that meets every constraint: a 19-bit timing word without gaps, 8-bit operands, a 5-bit `op`, other code
numbers, the mask calls issued the other way round. -/
def other : Config :=
  { cfg with wordW := 19, sjwOff := 17, ts1Off := 13, ts2Off := 10, operandW := 8, flagsW := 4, opW := 5, opInit := 9,
             opOpen := 31, modeLoopback := 1, modeSilent := 0, countW := 8, irqOrder := irqKinds.reverse,
             ienErrorWarning := 4, ienGenericError := 0, artEnabled := 0, artDisabled := 1, resOk := 7 }
/-- Its block, staged, with its own OPEN word (code 31) on the port. -/
def otherStaged : State other :=
  { State.resetWith other with
    pcfg := some { timing := packWith other ⟨3, 1, 10, 3⟩, mode := 0, art := true, filter := buildFilter other }
    answers := [.ok, .ok, .ok], port := [assembleWith other 31 0 0 0 0 0] }
/-- `STATE`, `RES` and the number of calls of an outcome. -/
def openedAs : Out other → Option (BitVec 1 × BitVec 3 × Nat)
  | .next t => some (t.state.bit, resOut t, t.ptrace.length)
  | _ => none
/-- EveryRecordKeepsTheInvariant, EveryRecordReadsItsCommandWord: that block's OPEN gives a next state
that is Open, with the record's code for `Ok`. -/
theorem witness_other_record : other.TimingOk ∧ other.FlagsOk ∧ other.CodesOk ∧ Inv otherStaged ∧
    openedAs (stepWith otherStaged) = some (1, 7, 8) := by decide
/-- AnswersAreTakenInOrder: scripted answers and depths, and none left. -/
theorem witness_answers : (staged [.fail, .ok]).answers = .fail :: [.ok] ∧ State.reset.answers = [] ∧
    (live [] [2, 9]).depths = 2 :: [9] ∧ State.reset.depths = [] := by decide
/-- EveryOpenOutcomeHappens, FailedOpenCanBeRetried: program 2 line 2. -/
theorem witness_failed_open : IrqInv (staged [.ok, .fail, .ok]) ∧ (staged [.ok, .fail, .ok]).pcfg = some recA ∧
    (staged [.ok, .fail, .ok]).staged = true ∧
    (shown (exec .openCmd (staged [.ok, .fail, .ok]))).map (fun v => v.res) = some 2 := by decide

end Sys2Proof.Tests
end

section
/-!
PROOFS. The command word of every record, and the machine's step as the block's step at the decided record
(spec/00_scope.md R8, 30_encoding.md R71, R72).
-/

namespace Sys2Proof

/-! ### Fields of appended words -/

/-- A field that starts above the low part of an appended word is a field of the high part. -/
theorem extractLsb'_append_add {v w : Nat} (x : BitVec v) (y : BitVec w) (start len : Nat) :
    (x ++ y).extractLsb' (start + w) len = x.extractLsb' start len := by
  rw [BitVec.extractLsb'_append_eq_of_le (Nat.le_add_left ..), Nat.add_sub_cancel]

/-- A field that starts where the high part of an appended word starts. -/
theorem extractLsb'_append_width {v w : Nat} (x : BitVec v) (y : BitVec w) (len : Nat) :
    (x ++ y).extractLsb' w len = x.extractLsb' 0 len := by
  simpa using extractLsb'_append_add x y 0 len

section
variable (c : Config) (op : BitVec c.opW) (p s a b : BitVec c.operandW) (f : BitVec c.flagsW)

@[simp] theorem cmdOpWith_assembleWith : cmdOpWith c (assembleWith c op p s a b f) = op := by
  simp only [cmdOpWith, assembleWith, extractLsb'_append_add, BitVec.extractLsb'_append_eq_left]

@[simp] theorem cmdPrescWith_assembleWith : cmdPrescWith c (assembleWith c op p s a b f) = p := by
  simp only [cmdPrescWith, assembleWith, extractLsb'_append_add, extractLsb'_append_width,
    BitVec.extractLsb'_append_eq_right]

@[simp] theorem cmdSjwWith_assembleWith : cmdSjwWith c (assembleWith c op p s a b f) = s := by
  simp only [cmdSjwWith, assembleWith, extractLsb'_append_add, extractLsb'_append_width,
    BitVec.extractLsb'_append_eq_right]

@[simp] theorem cmdTs1With_assembleWith : cmdTs1With c (assembleWith c op p s a b f) = a := by
  simp only [cmdTs1With, assembleWith, extractLsb'_append_add, extractLsb'_append_width,
    BitVec.extractLsb'_append_eq_right]

@[simp] theorem cmdTs2With_assembleWith : cmdTs2With c (assembleWith c op p s a b f) = b := by
  simp only [cmdTs2With, assembleWith, extractLsb'_append_width, BitVec.extractLsb'_append_eq_right]

@[simp] theorem cmdFlagsWith_assembleWith : cmdFlagsWith c (assembleWith c op p s a b f) = f := by
  simp only [cmdFlagsWith, assembleWith, BitVec.extractLsb'_append_eq_right]

end

/-! ### Command codes -/

/-- With distinct code numbers each code names its command, and no other code names one (R72). -/
theorem commandOf_eq_iff {c : Config} (hcodes : [c.opInit, c.opOpenreq, c.opOpen, c.opClose, c.opPoll].Nodup) (n : Nat) :
    (commandOf c n = .init ↔ n = c.opInit) ∧ (commandOf c n = .openreq ↔ n = c.opOpenreq) ∧
    (commandOf c n = .openCmd ↔ n = c.opOpen) ∧ (commandOf c n = .close ↔ n = c.opClose) ∧
    (commandOf c n = .poll ↔ n = c.opPoll) := by
  simp only [List.nodup_cons, List.mem_cons, List.not_mem_nil, or_false, not_or] at hcodes
  unfold commandOf
  split_ifs <;> simp <;> omega

/-- The codes that the decided record reserves are 5, 6 and 7 (R78). -/
theorem reserved_code_of_decided {o : BitVec 3} {code : Nat} (h : commandOf Machine.cfg o.toNat = .reserved code) :
    code = 5 ∨ code = 6 ∨ code = 7 := by
  have hall : ∀ o : BitVec 3, commandOf Machine.cfg o.toNat ∈
      [.init, .openreq, .openCmd, .close, .poll, .reserved 5, .reserved 6, .reserved 7] := by decide
  simpa [h] using hall o

namespace Machine

/-- Running the decoded instruction is what the block does with the word at the decided record. -/
theorem exec_decode_eq_accept (w : Cmd) (s : State) : exec (decode w) s = accept w s := by
  have haccept : commandOf cfg (cmdOpWith cfg w).toNat = commandOf cfg (cmdOp w).toNat := rfl
  unfold decode accept
  rw [haccept]
  cases hc : commandOf cfg (cmdOp w).toNat with
  | init => rfl
  | openreq => rfl
  | openCmd => rfl
  | close => rfl
  | poll => rfl
  | reserved code => rcases reserved_code_of_decided hc with rfl | rfl | rfl <;> rfl

theorem step_eq_stepWith (s : State) : step s = stepWith s := by
  unfold step stepWith
  cases s.port with
  | nil => rfl
  | cons w rest => exact exec_decode_eq_accept w { s with port := rest }

end Machine

/-- Settles O51: the record is a literal, and each constraint on it is a closed comparison. -/
theorem decidedRecordMeetsTheConstraints : Obligations.DecidedRecordMeetsTheConstraints := by
  unfold Obligations.DecidedRecordMeetsTheConstraints
  decide

/-- Settles O52: the decoded instruction and the accepted word have the same meaning, command by command. -/
theorem stepIsTheBlockAtTheDecidedRecord : Obligations.StepIsTheBlockAtTheDecidedRecord :=
  ⟨Machine.step_eq_stepWith, rfl⟩

/-- Settles O53: the fields are peeled off the word from its low end; the codes by their distinctness. -/
theorem everyRecordReadsItsCommandWord : Obligations.EveryRecordReadsItsCommandWord := by
  intro c
  refine ⟨fun op p s a b f => by simp, fun hcodes n => ?_⟩
  obtain ⟨-, -, hops, -⟩ := hcodes
  exact commandOf_eq_iff hops n

end Sys2Proof
end

section
/-!
PROOFS. Every record that meets the constraints keeps the invariant of Safety.lean. `Leads` says what a run of events does
to the mask and to the monitor of log 15; each sequence of calls the block makes has one such lemma, and each command is
assembled from them.
-/

namespace Sys2Proof.Machine

variable {c : Config}

/-! ### The mask of a list of kinds -/

/-- The `IEN` bits of a list of kinds. -/
def kindBits (c : Config) (ks : List IrqKind) : IrqMask := ks.foldr (fun k m => (1#5 <<< irqBit c k) ||| m) irqNone

theorem kindBits_nil : kindBits c [] = 0#5 := rfl

theorem kindBits_cons (k : IrqKind) (ks : List IrqKind) :
    kindBits c (k :: ks) = (1#5 <<< irqBit c k) ||| kindBits c ks := rfl

theorem getLsbD_kindBits_of_mem {k : IrqKind} {ks : List IrqKind} (hk : k ∈ ks) (hlt : irqBit c k < 5) :
    (kindBits c ks).getLsbD (irqBit c k) = true := by
  induction ks with
  | nil => cases hk
  | cons k' ks ih =>
    rw [kindBits_cons, BitVec.getLsbD_or, ← BitVec.twoPow_eq, BitVec.getLsbD_twoPow]
    rcases List.mem_cons.mp hk with rfl | hk
    · simp [hlt]
    · simp [ih hk]

/-- The gate issues a call for every kind (D9). -/
theorem mem_irqKinds (hcodes : c.CodesOk) (k : IrqKind) : k ∈ irqKinds c := by
  obtain ⟨-, -, -, -, -, horder⟩ := hcodes
  exact horder.mem_iff.mpr (by cases k <;> decide)

theorem irqKinds_ne_nil (hcodes : c.CodesOk) : irqKinds c ≠ [] :=
  List.ne_nil_of_mem (mem_irqKinds hcodes .busOff)

/-- Every bit of `IEN` belongs to a kind (R29). -/
theorem exists_irqBit_eq (hcodes : c.CodesOk) {i : Nat} (hi : i < 5) : ∃ k, irqBit c k = i := by
  obtain ⟨-, -, -, -, hbits, -⟩ := hcodes
  have hmem := hbits.mem_iff.mpr (List.mem_range.mpr hi)
  simp only [List.mem_cons, List.not_mem_nil, or_false] at hmem
  rcases hmem with h | h | h | h | h
  · exact ⟨.errorWarning, h.symm⟩
  · exact ⟨.errorPassive, h.symm⟩
  · exact ⟨.busOff, h.symm⟩
  · exact ⟨.lastErrorCode, h.symm⟩
  · exact ⟨.genericError, h.symm⟩

/-- The five calls of the gate cover the whole of `IEN`. -/
theorem kindBits_irqKinds (hcodes : c.CodesOk) : kindBits c (irqKinds c) = irqAll := by
  apply BitVec.eq_of_getLsbD_eq
  intro i hi
  obtain ⟨k, rfl⟩ := exists_irqBit_eq hcodes hi
  rw [getLsbD_kindBits_of_mem (mem_irqKinds hcodes k) hi]
  exact (BitVec.getLsbD_allOnes.trans (decide_eq_true hi)).symm

theorem foldl_maskStep_irqEn (m : IrqMask) (ks : List IrqKind) :
    (ks.map (Event.irqEn (c := c))).foldl maskStep m = m ||| kindBits c ks := by
  induction ks generalizing m with
  | nil => rw [List.map_nil, List.foldl_nil, kindBits_nil, BitVec.or_zero]
  | cons k ks ih => simp only [List.map_cons, List.foldl_cons, ih, maskStep, kindBits_cons, BitVec.or_assoc]

theorem foldl_maskStep_irqDis (m : IrqMask) (ks : List IrqKind) :
    (ks.map (Event.irqDis (c := c))).foldl maskStep m = m &&& ~~~kindBits c ks := by
  induction ks generalizing m with
  | nil => rw [List.map_nil, List.foldl_nil, kindBits_nil, BitVec.not_zero, BitVec.and_allOnes]
  | cons k ks ih =>
    simp only [List.map_cons, List.foldl_cons, ih, maskStep, kindBits_cons, BitVec.not_or, BitVec.and_assoc]

/-! ### What a run of events does to the mask and to the monitor -/

theorem Phase.run_append (p : Phase) (es es' : List (Event c)) :
    p.run (es ++ es') = (p.run es).bind (fun q => q.run es') := by
  induction es generalizing p with
  | nil => rfl
  | cons e es ih =>
    cases h : p.next e with
    | none => simp [Phase.run, h]
    | some q => simp [Phase.run, h, ih]

/-- The events `ev`, read where the mask asked for is `m` and the monitor stands at `p`, are allowed and lead to the mask
`m'` and the phase `p'`. -/
def Leads (m : IrqMask) (p : Phase) (ev : List (Event c)) (m' : IrqMask) (p' : Phase) : Prop :=
  ev.foldl maskStep m = m' ∧ p.run ev = some p'

theorem Leads.append {m m' m'' : IrqMask} {p p' p'' : Phase} {ev ev' : List (Event c)} (h : Leads m p ev m' p')
    (h' : Leads m' p' ev' m'' p'') : Leads m p (ev ++ ev') m'' p'' := by
  obtain ⟨hm, hp⟩ := h
  obtain ⟨hm', hp'⟩ := h'
  exact ⟨by rw [List.foldl_append, hm, hm'], by rw [Phase.run_append, hp, Option.bind_some, hp']⟩

theorem run_down_irqDis (ks : List IrqKind) : Phase.run .down (ks.map (Event.irqDis (c := c))) = some .down := by
  induction ks with
  | nil => rfl
  | cons k ks ih => exact ih

theorem run_disabling_irqDis (ks : List IrqKind) (r : PResult) :
    Phase.run (.disabling ks) (ks.map (Event.irqDis (c := c)) ++ [.deinit r]) = some .down := by
  induction ks with
  | nil => simp [Phase.run, Phase.next]
  | cons k ks ih => simpa [Phase.run, Phase.next] using ih

theorem run_enabling_irqEn {ks : List IrqKind} (hne : ks ≠ []) :
    Phase.run (.enabling ks) (ks.map (Event.irqEn (c := c))) = some .up := by
  induction ks with
  | nil => exact absurd rfl hne
  | cons k ks ih =>
    cases ks with
    | nil => simp [Phase.run, Phase.next]
    | cons k' ks => simpa [Phase.run, Phase.next] using ih (List.cons_ne_nil k' ks)

/-- IRQ_DISABLE while nothing is initialised (CLOSE from Disabled, R138). -/
theorem leads_irqDis (hcodes : c.CodesOk) (m : IrqMask) :
    Leads (c := c) m .down ((irqKinds c).map Event.irqDis) irqNone .down := by
  refine ⟨?_, run_down_irqDis _⟩
  rw [foldl_maskStep_irqDis, kindBits_irqKinds hcodes]
  exact BitVec.and_zero

/-- The gate's five disable calls and `P_DEINIT` from Open (R139). -/
theorem leads_teardownEvents (hcodes : c.CodesOk) (m : IrqMask) (s : State c) :
    Leads m .up (teardownEvents s) irqNone .down := by
  constructor
  · rw [teardownEvents, List.foldl_append, foldl_maskStep_irqDis, kindBits_irqKinds hcodes]
    exact BitVec.and_zero
  · rw [teardownEvents]
    have hrun := run_disabling_irqDis (c := c) (irqKinds c) (nthResult s 0)
    obtain ⟨k, ks, hks⟩ := List.exists_cons_of_ne_nil (irqKinds_ne_nil hcodes)
    rw [hks] at hrun ⊢
    simpa [Phase.run, Phase.next, hks] using hrun

/-- `P_INIT` answers `Fail` (D30). -/
theorem leads_failedInit (m : IrqMask) (md : BitVec c.modeW) (w : BitVec c.wordW) (art : Bool) :
    Leads m .down [.init md w art .fail] m .down := ⟨rfl, rfl⟩

/-- `P_CFGFILTER` answers `Fail`, and the rollback. -/
theorem leads_failedFilter (m : IrqMask) (md : BitVec c.modeW) (w : BitVec c.wordW) (art : Bool) (f : Filter)
    (r : PResult) : Leads m .down [.init md w art .ok, .cfgFilter f .fail, .deinit r] m .down := ⟨rfl, rfl⟩

/-- `P_START` answers `Fail`, and the rollback (D22). -/
theorem leads_failedStart (m : IrqMask) (md : BitVec c.modeW) (w : BitVec c.wordW) (art : Bool) (f : Filter)
    (r : PResult) : Leads m .down [.init md w art .ok, .cfgFilter f .ok, .start .fail, .deinit r] m .down :=
  ⟨rfl, rfl⟩

/-- The three hardware steps of OPEN and the gate's five enable calls (R136). -/
theorem leads_opened (hcodes : c.CodesOk) (m : IrqMask) (md : BitVec c.modeW) (w : BitVec c.wordW) (art : Bool)
    (f : Filter) :
    Leads m .down ([.init md w art .ok, .cfgFilter f .ok, .start .ok] ++ (irqKinds c).map Event.irqEn) irqAll .up := by
  have hsteps : Leads m .down [.init md w art .ok, .cfgFilter f .ok, .start .ok] m (.enabling (irqKinds c)) :=
    ⟨rfl, rfl⟩
  refine hsteps.append ⟨?_, run_enabling_irqEn (irqKinds_ne_nil hcodes)⟩
  rw [foldl_maskStep_irqEn, kindBits_irqKinds hcodes]
  exact BitVec.or_allOnes

/-- POLL's query while Open (R140). -/
theorem leads_rxDepth (m : IrqMask) (q : QueueId) (n : BitVec c.countW) : Leads m .up [.rxDepth q n] m .up := ⟨rfl, rfl⟩

/-! ### The invariant in terms of `Leads` -/

/-- The mask that R36 asks for in each value of `STATE`. -/
def restMask : InterfaceState → IrqMask
  | .disabled => irqNone
  | .opened => irqAll

/-- Where the monitor stands between two commands in each value of `STATE`. -/
def restPhase : InterfaceState → Phase
  | .disabled => .down
  | .opened => .up

/-- A good state: `IEN` fits `STATE`, R37 and R38 hold, and the trace leads from reset to where `STATE` says. -/
theorem inv_iff (s : State c) : Inv s ↔ s.ien = restMask s.state ∧ StagingInv s ∧ StagedWfInv s ∧
    Leads irqNone .down s.ptrace (restMask s.state) (restPhase s.state) := by
  have hmask : (if s.state = .opened then irqAll else irqNone) = restMask s.state := by cases s.state <;> rfl
  have hphase : (if s.state = .opened then Phase.up else .down) = restPhase s.state := by cases s.state <;> rfl
  simp only [Inv, IrqInv, MaskInv, ProtocolInv, hmask, hphase, Leads, traceMask]
  constructor
  · rintro ⟨hien, hstaging, hwf, htrace, hrun⟩
    exact ⟨hien, hstaging, hwf, htrace.symm.trans hien, hrun⟩
  · rintro ⟨hien, hstaging, hwf, htrace, hrun⟩
    exact ⟨hien, hstaging, hwf, hien.trans htrace.symm, hrun⟩

theorem inv_resetWith (c : Config) : Inv (State.resetWith c) := by
  refine (inv_iff _).mpr ⟨rfl, ?_, ?_, rfl, rfl⟩
  · rintro ⟨⟩
  · rintro p ⟨⟩

/-- A command that keeps the staged record is judged by its events: they must lead from where the old `STATE` rests to
where the new one does, and the command must leave the mask of R36. -/
theorem Inv.append {s t : State c} {x y : InterfaceState} {ev : List (Event c)} (hinv : Inv s) (hs : s.state = x)
    (ht : t.state = y) (hien : t.ien = restMask y) (hpcfg : t.pcfg = s.pcfg) (hstaged : y = .opened → s.staged = true)
    (htrace : t.ptrace = s.ptrace ++ ev) (hev : Leads (restMask x) (restPhase x) ev (restMask y) (restPhase y)) :
    Inv t := by
  subst hs ht
  obtain ⟨-, -, hwf, hleads⟩ := (inv_iff s).mp hinv
  refine (inv_iff t).mpr ⟨hien, fun ho => ?_, by rwa [StagedWfInv, hpcfg], ?_⟩
  · rw [State.staged, hpcfg]
    exact hstaged ho
  · rw [htrace]
    exact hleads.append hev

/-! ### PACK's word is well formed, for every layout -/

/-- A bit of a value placed at an offset of the timing word. -/
theorem getLsbD_placed (c : Config) (v off i : Nat) :
    (BitVec.ofNat c.wordW v <<< off).getLsbD i = (decide (i < c.wordW ∧ off ≤ i) && v.testBit (i - off)) := by
  rw [BitVec.getLsbD_shiftLeft, BitVec.getLsbD_ofNat]
  grind

/-- A prescaler that passes VALIDATE fits its field (R92). -/
theorem presc_bounds_of_validate {t : BitTiming} (hv : validate t c = true) : 1 ≤ t.presc ∧ t.presc < 2 ^ c.prescW := by
  obtain ⟨⟨hp1, hpmax⟩, -⟩ := (validate_ranges c t.presc t.sjw t.ts1 t.ts2).mp hv
  unfold Config.prescMax at hpmax
  omega

/-- A value of `n` bits stays inside its field. -/
theorem getLsbD_fieldBits_of_placed {v off n i : Nat} (hv : v < 2 ^ n)
    (h : (BitVec.ofNat c.wordW v <<< off).getLsbD i = true) : (fieldBits c off n).getLsbD i = true := by
  rw [getLsbD_placed, Bool.and_eq_true] at h
  obtain ⟨hrange, hbit⟩ := h
  rw [fieldBits, getLsbD_placed, Nat.testBit_two_pow_sub_one, hrange, Bool.true_and, decide_eq_true_eq]
  by_contra hge
  have hbig : v < 2 ^ (i - off) := hv.trans_le (Nat.pow_le_pow_right (by decide) (not_lt.mp hge))
  rw [Nat.testBit_lt_two_pow hbig] at hbit
  exact Bool.false_ne_true hbit

/-- The reserved bits of PACK's word are 0 (R93). -/
theorem packWith_and_reserved (hlayout : c.TimingOk) {t : BitTiming} (hv : validate t c = true) :
    packWith c t &&& reservedTimingBits c = 0 := by
  obtain ⟨-, -, -, -, hsjwW, hts1W, hts2W⟩ := hlayout
  obtain ⟨-, hpresc⟩ := presc_bounds_of_validate hv
  obtain ⟨-, hj, ha, hb⟩ := (validate_ranges c t.presc t.sjw t.ts1 t.ts2).mp hv
  apply BitVec.eq_of_getLsbD_eq
  intro i _
  have hsjw := getLsbD_fieldBits_of_placed (c := c) (off := c.sjwOff) (i := i) (show t.sjw - 1 < 2 ^ c.sjwW by omega)
  have hts1 := getLsbD_fieldBits_of_placed (c := c) (off := c.ts1Off) (i := i) (show t.ts1 - 1 < 2 ^ c.ts1W by omega)
  have hts2 := getLsbD_fieldBits_of_placed (c := c) (off := c.ts2Off) (i := i) (show t.ts2 - 1 < 2 ^ c.ts2W by omega)
  have hpr := getLsbD_fieldBits_of_placed (c := c) (off := c.prescOff) (i := i) hpresc
  simp only [packWith, reservedTimingBits, BitVec.getLsbD_and, BitVec.getLsbD_or, BitVec.getLsbD_not]
  grind

/-- PACK's prescaler field holds the prescaler (R93): the segments stand above it. -/
theorem extractLsb'_presc_packWith (hlayout : c.TimingOk) (t : BitTiming) :
    (packWith c t).extractLsb' c.prescOff c.prescW = BitVec.ofNat c.prescW t.presc := by
  obtain ⟨hts2, hts1, hsjw, hword, -⟩ := hlayout
  apply BitVec.eq_of_getLsbD_eq
  intro i hi
  simp only [packWith, BitVec.getLsbD_extractLsb', BitVec.getLsbD_or, getLsbD_placed, BitVec.getLsbD_ofNat]
  have h1 : ¬ c.sjwOff ≤ c.prescOff + i := by omega
  have h2 : ¬ c.ts1Off ≤ c.prescOff + i := by omega
  have h3 : ¬ c.ts2Off ≤ c.prescOff + i := by omega
  have h4 : c.prescOff + i < c.wordW := by omega
  simp [hi, h1, h2, h3, h4]

/-- R38 of every record that PACK writes. -/
theorem wellFormedWord_pack (hlayout : c.TimingOk) (t : ValidTiming c) : wellFormedWord (pack t) = true := by
  obtain ⟨t, hv⟩ := t
  obtain ⟨hp1, hpresc⟩ := presc_bounds_of_validate hv
  have hne : BitVec.ofNat c.prescW t.presc ≠ 0 := by
    intro h0
    have hnat : t.presc = 0 := by simpa [Nat.mod_eq_of_lt hpresc] using congrArg BitVec.toNat h0
    omega
  rw [wellFormedWord, pack, extractLsb'_presc_packWith hlayout, packWith_and_reserved hlayout hv]
  simpa using hne

/-! ### Each command keeps the invariant -/

/-- What INIT and OPEN start from: torn down if Open, else as it was. -/
theorem teardownIfOpen_keeps_inv (hcodes : c.CodesOk) {s : State c} (hinv : Inv s) :
    Inv (teardownIfOpen s) ∧ (teardownIfOpen s).state = .disabled ∧ (teardownIfOpen s).pcfg = s.pcfg := by
  rcases teardownIfOpen_cases s with ⟨hs, heq⟩ | ⟨hs, heq⟩ <;> rw [heq]
  · exact ⟨hinv, hs, rfl⟩
  · exact ⟨hinv.append hs rfl rfl rfl nofun rfl (leads_teardownEvents hcodes _ s), rfl, rfl⟩

theorem execInit_keeps_inv (hcodes : c.CodesOk) {s t : State c} (hinv : Inv s) (h : execInit s = .next t) : Inv t := by
  obtain ⟨hdown, hstate, -⟩ := teardownIfOpen_keeps_inv hcodes hinv
  obtain ⟨hien, -, -, hleads⟩ := (inv_iff _).mp hdown
  rw [hstate] at hien hleads
  rw [execInit_cases h]
  refine (inv_iff _).mpr ⟨hien, ?_, ?_, hleads⟩
  · rintro ⟨⟩
  · rintro p ⟨⟩

/-- OPENREQ stages a record in either value of `STATE`; only R37 and R38 look at it. -/
theorem execOpenreq_keeps_inv (hlayout : c.TimingOk) {p j a b : Nat} {f : BitVec c.flagsW} {s t : State c}
    (hinv : Inv s) (h : execOpenreq p j a b f s = .next t) : Inv t := by
  rcases execOpenreq_cases h with ⟨-, rfl⟩ | ⟨-, -, rfl⟩ | ⟨hv, m, art, -, rfl⟩
  · exact hinv
  · exact hinv
  · obtain ⟨hirq, -, -, hmask, hrun⟩ := hinv
    refine ⟨hirq, fun _ => rfl, ?_, hmask, hrun⟩
    rintro q ⟨⟩
    exact ⟨wellFormedWord_pack hlayout _, rfl⟩

/-- The hardware steps of OPEN, from a good Disabled state with its record staged. -/
theorem openInit_keeps_inv (hcodes : c.CodesOk) {p : PendingConfig c} {s t : State c} (hinv : Inv s)
    (hs : s.state = .disabled) (hp : s.pcfg = some p) (h : openInit p s = .next t) : Inv t := by
  obtain ⟨hien, -, -, -⟩ := (inv_iff s).mp hinv
  rw [hs] at hien
  rcases openInit_cases h with ⟨-, rfl⟩ | ⟨-, -, rfl⟩ | ⟨-, -, -, rfl⟩ | ⟨-, -, -, rfl⟩
  · exact hinv.append hs hs hien rfl nofun rfl (leads_failedInit ..)
  · exact hinv.append hs hs hien rfl nofun rfl (leads_failedFilter ..)
  · exact hinv.append hs hs hien rfl nofun rfl (leads_failedStart ..)
  · have hstaged : s.staged = true := by simp [State.staged, hp]
    exact hinv.append hs rfl rfl rfl (fun _ => hstaged) rfl (leads_opened hcodes ..)

theorem execOpen_keeps_inv (hcodes : c.CodesOk) {s t : State c} (hinv : Inv s) (h : execOpen s = .next t) : Inv t := by
  rcases execOpen_cases h with ⟨-, rfl⟩ | ⟨p, hp, hopen⟩
  · exact hinv
  · obtain ⟨hdown, hstate, hpcfg⟩ := teardownIfOpen_keeps_inv hcodes hinv
    exact openInit_keeps_inv hcodes hdown hstate (hpcfg.trans hp) hopen

theorem execClose_keeps_inv (hcodes : c.CodesOk) {s t : State c} (hinv : Inv s) (h : execClose s = .next t) :
    Inv t := by
  rcases execClose_cases h with ⟨hs, rfl⟩ | ⟨hs, rfl⟩
  · exact hinv.append hs hs rfl rfl nofun rfl (leads_irqDis hcodes _)
  · exact hinv.append hs rfl rfl rfl nofun rfl (leads_teardownEvents hcodes _ s)

theorem execPoll_keeps_inv {s t : State c} (hinv : Inv s) (h : execPoll s = .next t) : Inv t := by
  rcases execPoll_cases h with ⟨-, rfl⟩ | ⟨hs, rfl⟩
  · exact hinv
  · obtain ⟨hien, hstaging, -, -⟩ := (inv_iff s).mp hinv
    exact hinv.append hs (by simpa using hs) (by simpa [hs] using hien) (by simp) (fun _ => hstaging hs) rfl
      (leads_rxDepth ..)

/-- Every step of the block keeps the invariant. -/
theorem stepWith_keeps_inv (hlayout : c.TimingOk) (hcodes : c.CodesOk) {s t : State c} (hinv : Inv s)
    (h : stepWith s = .next t) : Inv t := by
  rcases stepWith_cases h with ⟨-, rfl⟩ | ⟨w, rest, -, hcmd⟩
  · exact hinv
  · have hinv' : Inv { s with port := rest } := hinv
    rcases hcmd with ⟨-, h⟩ | ⟨-, p, j, a, b, f, h⟩ | ⟨-, h⟩ | ⟨-, h⟩ | ⟨-, h⟩
    · exact execInit_keeps_inv hcodes hinv' h
    · exact execOpenreq_keeps_inv hlayout hinv' h
    · exact execOpen_keeps_inv hcodes hinv' h
    · exact execClose_keeps_inv hcodes hinv' h
    · exact execPoll_keeps_inv hinv' h

/-- Settles O54: the reset state is good, and a case per command of the step shows the invariant kept. -/
theorem everyRecordKeepsTheInvariant : Obligations.EveryRecordKeepsTheInvariant :=
  fun c hlayout hcodes => ⟨inv_resetWith c, fun _ _ => stepWith_keeps_inv hlayout hcodes⟩

end Sys2Proof.Machine
end

section
/-!
PROOFS. The invariants of the state, each on its own (spec/10_state.md R29, R36, R37, R38). `Effect` says once what any
step does to the trace, to `IEN` beside `STATE`, and to the staged record; the invariants are read off it.
-/

namespace Sys2Proof.Machine

variable {c : Config}

/-! ### The decided record meets the constraints -/

theorem cfg_timingOk : cfg.TimingOk := by decide

theorem cfg_codesOk : cfg.CodesOk := by decide

/-- Settles O40: the step is the block's step at the decided record, and the block keeps the invariant for every record
that meets the constraints. -/
theorem stepKeepsTheInvariant : Obligations.StepKeepsTheInvariant :=
  fun s _ hinv h => stepWith_keeps_inv cfg_timingOk cfg_codesOk hinv ((step_eq_stepWith s).symm.trans h)

/-! ### What a step can do to the trace, the mask and the staged record -/

/-- What every command does, from any state, good or not: the events it appends are allowed and lead the mask asked for
and the monitor along with `IEN` and `STATE`; `IEN` and `STATE` are left alone or set together; the staged record is
kept, cleared, or written by OPENREQ; and Open is entered with a record staged. -/
structure Effect (s t : State c) : Prop where
  trace : ∃ ev, t.ptrace = s.ptrace ++ ev ∧ Leads s.ien (restPhase s.state) ev t.ien (restPhase t.state)
  mask : (t.state = s.state ∧ t.ien = s.ien) ∨ t.ien = restMask t.state
  record : t.pcfg = s.pcfg ∨ t.pcfg = none ∨
    ∃ v m art, t.pcfg = some { timing := pack v, mode := m, art := art, filter := buildFilter c }
  entry : t.state = .opened → t.staged = true ∨ (s.state = .opened ∧ t.pcfg = s.pcfg)

theorem Effect.trans {s t u : State c} (hst : Effect s t) (htu : Effect t u) : Effect s u where
  trace := by
    obtain ⟨ev, htrace, hev⟩ := hst.trace
    obtain ⟨ev', htrace', hev'⟩ := htu.trace
    exact ⟨ev ++ ev', by rw [htrace', htrace, List.append_assoc], hev.append hev'⟩
  mask := by
    rcases htu.mask with ⟨hstate, hien⟩ | hrest
    · rw [hstate, hien]
      exact hst.mask
    · exact .inr hrest
  record := by
    rcases htu.record with hsame | hother
    · rw [hsame]
      exact hst.record
    · exact .inr hother
  entry := by
    intro hu
    rcases htu.entry hu with hstaged | ⟨ht, hsame⟩
    · exact .inl hstaged
    · rw [State.staged, hsame]
      exact hst.entry ht

/-- A command without a call that leaves `STATE` and `IEN` alone. -/
theorem Effect.of_no_call {s t : State c} (hstate : t.state = s.state) (hien : t.ien = s.ien)
    (htrace : t.ptrace = s.ptrace)
    (hrecord : t.pcfg = s.pcfg ∨
      ∃ v m art, t.pcfg = some { timing := pack v, mode := m, art := art, filter := buildFilter c }) :
    Effect s t where
  trace := ⟨[], by rw [htrace, List.append_nil], hien.symm, by rw [hstate]; rfl⟩
  mask := .inl ⟨hstate, hien⟩
  record := hrecord.imp_right .inr
  entry := by
    intro ht
    rcases hrecord with hsame | ⟨v, m, art, hnew⟩
    · exact .inr ⟨hstate.symm.trans ht, hsame⟩
    · exact .inl (by rw [State.staged, hnew]; rfl)

/-- A command that keeps the staged record and ends Disabled, its calls leading there from where `STATE` was. -/
theorem Effect.of_disabled {s t : State c} {x : InterfaceState} {ev : List (Event c)} (hs : s.state = x)
    (ht : t.state = .disabled) (hpcfg : t.pcfg = s.pcfg) (htrace : t.ptrace = s.ptrace ++ ev)
    (hev : Leads s.ien (restPhase x) ev t.ien .down) (hmask : (x = .disabled ∧ t.ien = s.ien) ∨ t.ien = irqNone) :
    Effect s t where
  trace := ⟨ev, htrace, by rw [hs, ht]; exact hev⟩
  mask := by
    rw [hs, ht]
    exact hmask.imp_left fun ⟨hx, hien⟩ => ⟨hx.symm, hien⟩
  record := .inl hpcfg
  entry := by
    rw [ht]
    nofun

theorem effect_teardownIfOpen (hcodes : c.CodesOk) (s : State c) : Effect s (teardownIfOpen s) := by
  rcases teardownIfOpen_cases s with ⟨-, heq⟩ | ⟨hs, heq⟩ <;> rw [heq]
  · exact .of_no_call rfl rfl rfl (.inl rfl)
  · exact .of_disabled hs rfl rfl rfl (leads_teardownEvents hcodes _ s) (.inr rfl)

theorem teardownIfOpen_state (s : State c) : (teardownIfOpen s).state = .disabled := by
  rcases teardownIfOpen_cases s with ⟨hs, heq⟩ | ⟨-, heq⟩
  · rw [heq, hs]
  · rw [heq]

theorem teardownIfOpen_pcfg (s : State c) : (teardownIfOpen s).pcfg = s.pcfg := by
  rcases teardownIfOpen_cases s with ⟨-, heq⟩ | ⟨-, heq⟩ <;> simp [heq]

/-- INIT's writes after the teardown. -/
theorem effect_clear {s : State c} (hs : s.state = .disabled) :
    Effect s { s with state := .disabled, pcfg := none, res := .ok } where
  trace := ⟨[], (List.append_nil _).symm, rfl, by rw [hs]; rfl⟩
  mask := .inl ⟨hs.symm, rfl⟩
  record := .inr (.inl rfl)
  entry := nofun

theorem effect_of_execInit (hcodes : c.CodesOk) {s t : State c} (h : execInit s = .next t) : Effect s t := by
  rw [execInit_cases h]
  exact (effect_teardownIfOpen hcodes s).trans (effect_clear (teardownIfOpen_state s))

theorem effect_of_execOpenreq {p j a b : Nat} {f : BitVec c.flagsW} {s t : State c}
    (h : execOpenreq p j a b f s = .next t) : Effect s t := by
  rcases execOpenreq_cases h with ⟨-, rfl⟩ | ⟨-, -, rfl⟩ | ⟨hv, m, art, -, rfl⟩
  · exact .of_no_call rfl rfl rfl (.inl rfl)
  · exact .of_no_call rfl rfl rfl (.inl rfl)
  · exact .of_no_call rfl rfl rfl (.inr ⟨_, _, _, rfl⟩)

theorem effect_of_openInit (hcodes : c.CodesOk) {p : PendingConfig c} {s t : State c} (hs : s.state = .disabled)
    (hp : s.pcfg = some p) (h : openInit p s = .next t) : Effect s t := by
  rcases openInit_cases h with ⟨-, rfl⟩ | ⟨-, -, rfl⟩ | ⟨-, -, -, rfl⟩ | ⟨-, -, -, rfl⟩
  · exact .of_disabled hs hs rfl rfl (leads_failedInit ..) (.inl ⟨rfl, rfl⟩)
  · exact .of_disabled hs hs rfl rfl (leads_failedFilter ..) (.inl ⟨rfl, rfl⟩)
  · exact .of_disabled hs hs rfl rfl (leads_failedStart ..) (.inl ⟨rfl, rfl⟩)
  · exact {
      trace := ⟨_, rfl, by rw [hs]; exact leads_opened hcodes ..⟩
      mask := .inr rfl
      record := .inl rfl
      entry := fun _ => .inl (by simp [State.staged, hp]) }

theorem effect_of_execOpen (hcodes : c.CodesOk) {s t : State c} (h : execOpen s = .next t) : Effect s t := by
  rcases execOpen_cases h with ⟨-, rfl⟩ | ⟨p, hp, hopen⟩
  · exact .of_no_call rfl rfl rfl (.inl rfl)
  · exact (effect_teardownIfOpen hcodes s).trans
      (effect_of_openInit hcodes (teardownIfOpen_state s) ((teardownIfOpen_pcfg s).trans hp) hopen)

theorem effect_of_execClose (hcodes : c.CodesOk) {s t : State c} (h : execClose s = .next t) : Effect s t := by
  rcases execClose_cases h with ⟨hs, rfl⟩ | ⟨hs, rfl⟩
  · exact .of_disabled hs hs rfl rfl (leads_irqDis hcodes _) (.inr rfl)
  · exact .of_disabled hs rfl rfl rfl (leads_teardownEvents hcodes _ s) (.inr rfl)

theorem effect_of_execPoll {s t : State c} (h : execPoll s = .next t) : Effect s t := by
  rcases execPoll_cases h with ⟨-, rfl⟩ | ⟨hs, rfl⟩
  · exact .of_no_call rfl rfl rfl (.inl rfl)
  · exact {
      trace := ⟨_, rfl, by simp only [dropDepth_state, dropDepth_ien, hs]; exact leads_rxDepth ..⟩
      mask := .inl ⟨dropDepth_state s, dropDepth_ien s⟩
      record := .inl (dropDepth_pcfg s)
      entry := fun _ => .inr ⟨hs, dropDepth_pcfg s⟩ }

theorem effect_of_stepWith (hcodes : c.CodesOk) {s t : State c} (h : stepWith s = .next t) : Effect s t := by
  rcases stepWith_cases h with ⟨-, rfl⟩ | ⟨w, rest, -, hcmd⟩
  · exact .of_no_call rfl rfl rfl (.inl rfl)
  · have htake : Effect s { s with port := rest } := .of_no_call rfl rfl rfl (.inl rfl)
    rcases hcmd with ⟨-, h⟩ | ⟨-, p, j, a, b, f, h⟩ | ⟨-, h⟩ | ⟨-, h⟩ | ⟨-, h⟩
    · exact htake.trans (effect_of_execInit hcodes h)
    · exact htake.trans (effect_of_execOpenreq h)
    · exact htake.trans (effect_of_execOpen hcodes h)
    · exact htake.trans (effect_of_execClose hcodes h)
    · exact htake.trans (effect_of_execPoll h)

theorem effect_of_step {s t : State} (h : step s = .next t) : Effect s t :=
  effect_of_stepWith cfg_codesOk ((step_eq_stepWith s).symm.trans h)

/-! ### The invariants read off the effect -/

theorem irqInv_iff (s : State c) : IrqInv s ↔ s.ien = restMask s.state := by
  cases hs : s.state <;> simp [IrqInv, hs, restMask]

theorem Effect.irqInv {s t : State c} (he : Effect s t) (hs : IrqInv s) : IrqInv t := by
  rw [irqInv_iff] at hs ⊢
  rcases he.mask with ⟨hstate, hien⟩ | hrest
  · rw [hstate, hien, hs]
  · exact hrest

theorem Effect.maskInv {s t : State c} (he : Effect s t) (hs : MaskInv s) : MaskInv t := by
  obtain ⟨ev, htrace, hmask, -⟩ := he.trace
  rw [MaskInv, htrace, traceMask, List.foldl_append, ← traceMask, ← hs, hmask]

theorem Effect.stagingInv {s t : State c} (he : Effect s t) (hs : StagingInv s) : StagingInv t := by
  intro ht
  rcases he.entry ht with hstaged | ⟨hopen, hsame⟩
  · exact hstaged
  · rw [State.staged, hsame]
    exact hs hopen

/-- Whatever holds of the records OPENREQ writes stays true of the staged record. -/
theorem Effect.record_induction {P : PendingConfig c → Prop}
    (hnew : ∀ v m art, P { timing := pack v, mode := m, art := art, filter := buildFilter c }) {s t : State c}
    (he : Effect s t) (hs : ∀ p ∈ s.pcfg, P p) : ∀ p ∈ t.pcfg, P p := by
  rcases he.record with hsame | hnone | ⟨v, m, art, hsome⟩
  · rwa [hsame]
  · rw [hnone]
    nofun
  · rw [hsome]
    rintro p ⟨⟩
    exact hnew v m art

theorem Effect.stagedWfInv (hlayout : c.TimingOk) {s t : State c} (he : Effect s t) (hs : StagedWfInv s) :
    StagedWfInv t :=
  he.record_induction (fun v _ _ => ⟨wellFormedWord_pack hlayout v, rfl⟩) hs

/-- R38's two clauses on the word, at the decided record. -/
theorem wellFormedWord_iff_toNat (w : Word) :
    wellFormedWord w = true ↔ (w &&& 0xFC08FC00 = 0 ∧ 1 ≤ (w.extractLsb' 0 10).toNat) := by
  rw [wellFormedWord_iff, Nat.one_le_iff_ne_zero]
  exact and_congr_right' (not_congr BitVec.toNat_inj.symm)

/-- Settles O38: the events a step appends move the mask asked for just as the step moves `IEN`. -/
theorem ienIsWhatTheTraceAskedFor : Obligations.IenIsWhatTheTraceAskedFor :=
  fun _ _ hs h => (effect_of_step h).maskInv hs

/-- Settles O39: Open is entered with a record staged, and only OPENREQ writes a record, with PACK's word in it. -/
theorem stagedRecordInvariants : Obligations.StagedRecordInvariants := by
  refine ⟨fun _ _ hs h => (effect_of_step h).stagingInv hs,
    fun _ _ hs h => (effect_of_step h).stagedWfInv cfg_timingOk hs, fun _ _ hs h => ?_⟩
  exact (effect_of_step h).record_induction
    (fun v _ _ => (wellFormedWord_iff_toNat _).mp (wellFormedWord_pack cfg_timingOk v)) hs

/-! ### The mask at each place of the monitor -/

/-- What the mask asked for must be where the monitor stands: off wherever a hardware step may follow. -/
def Phase.MaskFits (c : Config) (m : IrqMask) : Phase → Prop
  | .down | .inited | .filtered | .rollingBack => m = irqNone
  | .disabling left => m &&& ~~~kindBits c left = irqNone
  | .enabling _ | .up => True

/-- A hardware step is allowed only where the mask asked for is off. -/
theorem Phase.MaskFits.eq_irqNone {m : IrqMask} {p q : Phase} {e : Event c} (hm : p.MaskFits c m)
    (h : p.next e = some q) (he : e.isHardwareStep = true) : m = irqNone := by
  cases e with
  | init => obtain ⟨rfl, -⟩ := Option.ite_none_right_eq_some.mp h; exact hm
  | cfgFilter => obtain ⟨rfl, -⟩ := Option.ite_none_right_eq_some.mp h; exact hm
  | start => obtain ⟨rfl, -⟩ := Option.ite_none_right_eq_some.mp h; exact hm
  | deinit =>
    obtain ⟨rfl | rfl, -⟩ := Option.ite_none_right_eq_some.mp h
    · exact hm
    · rwa [Phase.MaskFits, kindBits_nil, BitVec.not_zero, BitVec.and_allOnes] at hm
  | rxDepth | irqEn | irqDis => cases he

theorem Phase.MaskFits.next (hcodes : c.CodesOk) {m : IrqMask} {p q : Phase} {e : Event c} (hm : p.MaskFits c m)
    (h : p.next e = some q) : q.MaskFits c (maskStep m e) := by
  have hoff := hm.eq_irqNone h
  cases e with
  | init _ _ _ r =>
    obtain ⟨-, ⟨⟩⟩ := Option.ite_none_right_eq_some.mp h
    cases r <;> exact hoff rfl
  | cfgFilter _ r =>
    obtain ⟨-, ⟨⟩⟩ := Option.ite_none_right_eq_some.mp h
    cases r <;> exact hoff rfl
  | start r =>
    obtain ⟨-, ⟨⟩⟩ := Option.ite_none_right_eq_some.mp h
    cases r
    · trivial
    · exact hoff rfl
  | deinit =>
    obtain ⟨-, ⟨⟩⟩ := Option.ite_none_right_eq_some.mp h
    exact hoff rfl
  | rxDepth =>
    obtain ⟨-, ⟨⟩⟩ := Option.ite_none_right_eq_some.mp h
    trivial
  | irqEn k =>
    simp only [Phase.next] at h
    split at h
    · obtain ⟨-, ⟨⟩⟩ := Option.ite_none_right_eq_some.mp h
      split <;> trivial
    · cases h
  | irqDis k =>
    simp only [Phase.next] at h
    split at h
    · obtain ⟨⟩ := h
      rw [show m = irqNone from hm]
      exact BitVec.zero_and
    · obtain ⟨hk, ⟨⟩⟩ := Option.ite_none_right_eq_some.mp h
      obtain ⟨ks, hks⟩ := List.head?_eq_some_iff.mp hk
      have hall := kindBits_irqKinds hcodes
      rw [hks, kindBits_cons] at hall
      rw [Phase.MaskFits, maskStep, hks, List.tail_cons, BitVec.and_assoc, ← BitVec.not_or, hall]
      exact BitVec.and_zero
    · obtain ⟨rfl, ⟨⟩⟩ := Option.ite_none_right_eq_some.mp h
      rwa [Phase.MaskFits, kindBits_cons, BitVec.not_or, ← BitVec.and_assoc] at hm
    · cases h

theorem Phase.MaskFits.run (hcodes : c.CodesOk) {m : IrqMask} {p q : Phase} {es : List (Event c)}
    (hm : p.MaskFits c m) (h : p.run es = some q) : q.MaskFits c (es.foldl maskStep m) := by
  induction es generalizing m p with
  | nil =>
    obtain ⟨⟩ := h
    exact hm
  | cons e es ih =>
    obtain ⟨p', hnext, hrun⟩ := Option.bind_eq_some_iff.mp h
    exact ih (hm.next hcodes hnext) hrun

/-- At every hardware step of an allowed trace the trace before it has asked for all kinds to be off (R36, R160). -/
theorem traceMask_eq_irqNone_of_hardwareStep (hcodes : c.CodesOk) {pre post : List (Event c)} {e : Event c} {q : Phase}
    (hrun : Phase.run .down (pre ++ e :: post) = some q) (he : e.isHardwareStep = true) : traceMask pre = irqNone := by
  rw [Phase.run_append] at hrun
  obtain ⟨p, hpre, hrest⟩ := Option.bind_eq_some_iff.mp hrun
  obtain ⟨p', hnext, -⟩ := Option.bind_eq_some_iff.mp hrest
  have hfits : p.MaskFits c (traceMask pre) := Phase.MaskFits.run hcodes (m := irqNone) (p := .down) rfl hpre
  exact hfits.eq_irqNone hnext he

/-- Settles O37: `IEN` and `STATE` are left alone or set together, and the mask fits the monitor's phase all along an
allowed trace. -/
theorem interruptsEnabledExactlyWhileOpen : Obligations.InterruptsEnabledExactlyWhileOpen := by
  refine ⟨rfl, fun _ _ hs h => (effect_of_step h).irqInv hs, fun s hprotocol pre e post htrace he => ?_⟩
  rw [ProtocolInv, htrace] at hprotocol
  exact traceMask_eq_irqNone_of_hardwareStep cfg_codesOk hprotocol he

end Sys2Proof.Machine
end

section
/-!
PROOFS. What each command leaves unchanged (the empty cells of spec/10_state.md R33), and the registers that no command
reads (R30, R31, R34).
-/

namespace Sys2Proof.Machine

variable {c : Config}

/-! ### The frame of the hardware steps (R33) -/

/-- What the teardown, OPEN and CLOSE leave alone: the staged record, `COUNT`, and the model's depths, latch and port. -/
def HardwareFrame (s t : State c) : Prop :=
  t.pcfg = s.pcfg ∧ t.count = s.count ∧ t.depths = s.depths ∧ t.unitOut = s.unitOut ∧ t.port = s.port

theorem HardwareFrame.refl (s : State c) : HardwareFrame s s := ⟨rfl, rfl, rfl, rfl, rfl⟩

theorem HardwareFrame.trans {s t u : State c} (hst : HardwareFrame s t) (htu : HardwareFrame t u) :
    HardwareFrame s u := by
  obtain ⟨hpcfg, hcount, hdepths, hunitOut, hport⟩ := htu
  rw [HardwareFrame, hpcfg, hcount, hdepths, hunitOut, hport]
  exact hst

theorem frame_teardownIfOpen (s : State c) : HardwareFrame s (teardownIfOpen s) := by
  rcases teardownIfOpen_cases s with ⟨-, heq⟩ | ⟨-, heq⟩ <;> rw [heq] <;> exact .refl s

theorem frame_of_openInit {p : PendingConfig c} {s t : State c} (h : openInit p s = .next t) : HardwareFrame s t := by
  rcases openInit_cases h with ⟨-, rfl⟩ | ⟨-, -, rfl⟩ | ⟨-, -, -, rfl⟩ | ⟨-, -, -, rfl⟩ <;> exact .refl s

theorem frame_of_execOpen {s t : State c} (h : execOpen s = .next t) : HardwareFrame s t := by
  rcases execOpen_cases h with ⟨-, rfl⟩ | ⟨p, -, hopen⟩
  · exact .refl s
  · exact (frame_teardownIfOpen s).trans (frame_of_openInit hopen)

theorem frame_of_execClose {s t : State c} (h : execClose s = .next t) : HardwareFrame s t := by
  rcases execClose_cases h with ⟨-, rfl⟩ | ⟨-, rfl⟩ <;> exact .refl s

/-- Settles O42: a clause per command, each from what that command can do. -/
theorem commandsWriteOnlyTheirRegisters : Obligations.CommandsWriteOnlyTheirRegisters := by
  intro s t
  refine ⟨fun h => ?init, fun p j a b f h => ?openreq, frame_of_execOpen, frame_of_execClose, fun h => ?poll⟩
  case init =>
    obtain ⟨-, hcount, hmodel⟩ := frame_teardownIfOpen s
    rw [execInit_cases h]
    exact ⟨hcount, fun hs => by rw [teardownIfOpen_disabled hs], hmodel⟩
  case openreq =>
    rcases execOpenreq_cases h with ⟨-, rfl⟩ | ⟨-, -, rfl⟩ | ⟨-, -, -, -, rfl⟩ <;> simp
  case poll =>
    rcases execPoll_cases h with ⟨-, rfl⟩ | ⟨-, rfl⟩ <;> simp

/-! ### No rule reads `RES`, `COUNT` or `PTRACE` -/

/-- The state with other values in the two output registers and another history. -/
def withOutputs (r : Result) (n : BitVec c.countW) (p : List (Event c)) (s : State c) : State c :=
  { s with res := r, count := n, ptrace := p }

/-- From `s` with any outputs and history, `f` ends in `t` but for what it leaves of them: it appends the same events, and
the two registers end as `R` and `N` say of the values before. -/
def Replays (f : State c → Out c) (s t : State c) (R : Result → Result)
    (N : BitVec c.countW → BitVec c.countW) : Prop :=
  ∃ ev, ∀ r n p, f (withOutputs r n p s) = .next (withOutputs (R r) (N n) (p ++ ev) t)

/-- A meaning that appends no event. -/
theorem Replays.of_no_event {f : State c → Out c} {s t : State c} {R : Result → Result}
    {N : BitVec c.countW → BitVec c.countW}
    (h : ∀ r n p, f (withOutputs r n p s) = .next (withOutputs (R r) (N n) p t)) : Replays f s t R N :=
  ⟨[], fun r n p => by rw [h, List.append_nil]⟩

/-- A meaning that appends some events and goes on as another. -/
theorem Replays.of_continue {f g : State c → Out c} {s s' t : State c} {R : Result → Result}
    {N : BitVec c.countW → BitVec c.countW} (ev : List (Event c))
    (hgo : ∀ r n p, g (withOutputs r n p s) = f (withOutputs r n (p ++ ev) s')) (hf : Replays f s' t R N) :
    Replays g s t R N := by
  obtain ⟨ev', hf⟩ := hf
  exact ⟨ev ++ ev', fun r n p => by rw [hgo, hf, List.append_assoc]⟩

@[simp] theorem withOutputs_state (r : Result) (n : BitVec c.countW) (p : List (Event c)) (s : State c) :
    (withOutputs r n p s).state = s.state := rfl
@[simp] theorem withOutputs_pcfg (r : Result) (n : BitVec c.countW) (p : List (Event c)) (s : State c) :
    (withOutputs r n p s).pcfg = s.pcfg := rfl
@[simp] theorem nthResult_withOutputs (r : Result) (n : BitVec c.countW) (p : List (Event c)) (s : State c) (k : Nat) :
    nthResult (withOutputs r n p s) k = nthResult s k := rfl

theorem dropDepth_withOutputs (r : Result) (n : BitVec c.countW) (p : List (Event c)) (s : State c) :
    dropDepth (withOutputs r n p s) = withOutputs r n p (dropDepth s) := by
  obtain ⟨_, _, _, _, _, _, _, _, _, ds, _⟩ := s
  cases ds <;> rfl

theorem teardownIfOpen_withOutputs (s : State c) : ∃ ev, ∀ r n p,
    teardownIfOpen (withOutputs r n p s) = withOutputs r n (p ++ ev) (teardownIfOpen s) := by
  rcases state_cases s with hs | hs
  · refine ⟨[], fun r n p => ?_⟩
    rw [teardownIfOpen_disabled hs, List.append_nil]
    exact teardownIfOpen_disabled hs
  · refine ⟨teardownEvents s, fun r n p => ?_⟩
    rw [teardownIfOpen_opened hs, teardownIfOpen_opened (by simpa using hs), teardown_eq, teardown_eq]
    rfl

theorem execInit_replays {s t : State c} (h : execInit s = .next t) :
    Replays execInit s t (fun _ => t.res) id := by
  obtain ⟨ev, hdown⟩ := teardownIfOpen_withOutputs s
  refine ⟨ev, fun r n p => ?_⟩
  rw [execInit_cases h, execInit, hdown]
  rfl

theorem execOpenreq_replays {p j a b : Nat} {f : BitVec c.flagsW} {s t : State c}
    (h : execOpenreq p j a b f s = .next t) : Replays (execOpenreq p j a b f) s t (fun _ => t.res) id := by
  refine .of_no_event fun r n tr => ?_
  rcases execOpenreq_cases h with ⟨hv, rfl⟩ | ⟨hv, hd, rfl⟩ | ⟨hv, m, art, hd, rfl⟩
  · simp [execOpenreq, hv, raise_eq, withOutputs]
  · simp [execOpenreq, hv, hd, raise_eq, withOutputs]
  · simp [execOpenreq, hv, hd, returnOk_eq, setPcfg, withOutputs]

theorem openStart_replays {s t : State c} (h : openStart s = .next t) :
    Replays openStart s t (fun _ => t.res) id := by
  rw [openStart_eq] at h
  cases hr : nthResult s 0 with
  | ok =>
    rw [hr] at h
    cases h
    exact ⟨.start .ok :: (irqKinds c).map Event.irqEn,
      fun r n p => by rw [openStart_eq, nthResult_withOutputs, hr]; rfl⟩
  | fail =>
    rw [hr] at h
    cases h
    exact ⟨[.start .fail, .deinit (nthResult s 1)],
      fun r n p => by rw [openStart_eq, nthResult_withOutputs, hr]; rfl⟩

theorem openFilter_replays {q : PendingConfig c} {s t : State c} (h : openFilter q s = .next t) :
    Replays (openFilter q) s t (fun _ => t.res) id := by
  rw [openFilter_eq] at h
  cases hr : nthResult s 0 with
  | ok =>
    rw [hr] at h
    refine .of_continue [.cfgFilter q.filter .ok] (fun r n p => ?_) (openStart_replays h)
    rw [openFilter_eq, nthResult_withOutputs, hr]
    rfl
  | fail =>
    rw [hr] at h
    cases h
    exact ⟨[.cfgFilter q.filter .fail, .deinit (nthResult s 1)],
      fun r n p => by rw [openFilter_eq, nthResult_withOutputs, hr]; rfl⟩

theorem openInit_replays {q : PendingConfig c} {s t : State c} (h : openInit q s = .next t) :
    Replays (openInit q) s t (fun _ => t.res) id := by
  rw [openInit_eq] at h
  cases hr : nthResult s 0 with
  | ok =>
    rw [hr] at h
    refine .of_continue [.init q.mode q.timing q.art .ok] (fun r n p => ?_) (openFilter_replays h)
    rw [openInit_eq, nthResult_withOutputs, hr]
    rfl
  | fail =>
    rw [hr] at h
    cases h
    exact ⟨_, fun r n p => by rw [openInit_eq, nthResult_withOutputs, hr]; rfl⟩

theorem execOpen_replays {s t : State c} (h : execOpen s = .next t) :
    Replays execOpen s t (fun _ => t.res) id := by
  rcases execOpen_cases h with ⟨hnone, rfl⟩ | ⟨q, hq, hopen⟩
  · refine .of_no_event fun r n p => ?_
    simp [execOpen, hnone, raise_eq, withOutputs]
  · obtain ⟨ev, hdown⟩ := teardownIfOpen_withOutputs s
    refine .of_continue ev (fun r n p => ?_) (openInit_replays hopen)
    rw [← hdown, execOpen, withOutputs_pcfg, hq]

theorem execClose_replays {s t : State c} (h : execClose s = .next t) :
    Replays execClose s t (fun _ => t.res) id := by
  rcases execClose_cases h with ⟨hs, rfl⟩ | ⟨hs, rfl⟩
  · refine ⟨(irqKinds c).map Event.irqDis, fun r n p => ?_⟩
    simp [execClose, hs, returnOk_eq, irqDisable_eq, withOutputs]
  · refine ⟨teardownEvents s, fun r n p => ?_⟩
    rw [execClose, withOutputs_state, hs, irqDisable_eq]
    simp only [closeFromOpen_eq, List.append_assoc]
    rfl

/-- POLL writes both output registers and still reads neither. -/
theorem execPoll_replays {s t : State c} (h : execPoll s = .next t) :
    Replays execPoll s t (fun _ => t.res) (fun _ => t.count) := by
  rcases execPoll_cases h with ⟨hs, rfl⟩ | ⟨hs, rfl⟩
  · refine .of_no_event fun r n p => ?_
    simp [execPoll, hs, returnOk_eq, setCount, withOutputs]
  · refine ⟨[.rxDepth c.qPrimary (nextDepth s)], fun r n p => ?_⟩
    rw [execPoll, withOutputs_state, hs]
    simp only [pRxDepth_eq, dropDepth_withOutputs]
    rfl

/-- A unit operation that only latches a value. -/
theorem setUnitOut_replays (v : UnitResult c) (s : State c) :
    Replays (fun s => .next (setUnitOut v s)) s (setUnitOut v s) id id :=
  .of_no_event fun _ _ _ => rfl

theorem execPack_replays {p j a b : Nat} {s t : State c} (h : execPack p j a b s = .next t) :
    Replays (execPack p j a b) s t id id := by
  unfold execPack at h ⊢
  split at h
  · cases h
    rename_i hv
    simpa [hv] using setUnitOut_replays _ s
  · cases h

theorem irqEnable_replays (s : State c) : Replays execIrqEnable s (irqEnable s) id id := by
  refine ⟨(irqKinds c).map Event.irqEn, fun r n p => ?_⟩
  rw [execIrqEnable, irqEnable_eq, irqEnable_eq]
  rfl

theorem irqDisable_replays (s : State c) : Replays execIrqDisable s (irqDisable s) id id := by
  refine ⟨(irqKinds c).map Event.irqDis, fun r n p => ?_⟩
  rw [execIrqDisable, irqDisable_eq, irqDisable_eq]
  rfl

theorem teardown_replays (s : State c) : Replays execTeardown s (teardown s) id id := by
  refine ⟨teardownEvents s, fun r n p => ?_⟩
  rw [execTeardown, teardown_eq, teardown_eq]
  rfl

/-- A command leaves its own `RES`, POLL its own `COUNT` too; a unit operation leaves both as they were (R73). -/
theorem exec_replays {i : Instr} {s t : State} (h : exec i s = .next t) :
    Replays (exec i) s t (fun r => if i.isUnit then r else t.res) (fun n => if i = .poll then t.count else n) := by
  cases i with
  | init => exact execInit_replays h
  | openreq => exact execOpenreq_replays h
  | openCmd => exact execOpen_replays h
  | close => exact execClose_replays h
  | poll => exact execPoll_replays h
  | reserved5 | reserved6 | reserved7 => cases h
  | validate | unpack | decode | buildFilter => cases h; exact setUnitOut_replays _ s
  | pack => exact execPack_replays h
  | irqEnable => cases h; exact irqEnable_replays s
  | irqDisable => cases h; exact irqDisable_replays s
  | teardown => cases h; exact teardown_replays s

/-- Settles O45: the instruction replays on other outputs and another history; on its own it shows that the events are
those it appended. -/
theorem outputsAndHistoryAreNeverRead : Obligations.OutputsAndHistoryAreNeverRead := by
  intro i s t r n p h
  obtain ⟨ev, hreplay⟩ := exec_replays h
  have hown : exec i s = .next (withOutputs _ _ (s.ptrace ++ ev) t) := hreplay s.res s.count s.ptrace
  rw [h, Host.Outcome.next.injEq] at hown
  exact ⟨ev, congrArg State.ptrace hown, hreplay r n p⟩

end Sys2Proof.Machine
end

section
/-!
PROOFS. The operands and the flags of an OPENREQ read back from what it stages (spec/10_state.md R32): the round trip of
PACK for every layout (40_bittiming.md R97) and the decoding of a supported flag word for every layout (41_ctrlmode.md
R106, R108).
-/

namespace Sys2Proof.Machine

variable {c : Config}

/-! ### UNPACK inverts PACK, for every layout -/

/-- A bit below a field's offset. -/
theorem getLsbD_placed_of_lt {v off i : Nat} (h : i < off) : (BitVec.ofNat c.wordW v <<< off).getLsbD i = false := by
  rw [getLsbD_placed, decide_eq_false (by omega), Bool.false_and]

/-- A bit above a field of `n` bits. -/
theorem getLsbD_placed_of_ge {v off n i : Nat} (hv : v < 2 ^ n) (h : off + n ≤ i) :
    (BitVec.ofNat c.wordW v <<< off).getLsbD i = false := by
  have hbig : v < 2 ^ (i - off) := hv.trans_le (Nat.pow_le_pow_right (by decide) (by omega))
  rw [getLsbD_placed, Nat.testBit_lt_two_pow hbig, Bool.and_false]

/-- A bit of a field that fits the word. -/
theorem getLsbD_placed_add {v off n i : Nat} (hfit : off + n ≤ c.wordW) (hi : i < n) :
    (BitVec.ofNat c.wordW v <<< off).getLsbD (off + i) = v.testBit i := by
  rw [getLsbD_placed, decide_eq_true (by omega), Bool.true_and, Nat.add_sub_cancel_left]

/-- A field of a word that agrees with a placed number inside the field holds that number. -/
theorem toNat_extractLsb'_of_placed {w : BitVec c.wordW} {v off n : Nat} (hfit : off + n ≤ c.wordW) (hv : v < 2 ^ n)
    (h : ∀ i < n, w.getLsbD (off + i) = (BitVec.ofNat c.wordW v <<< off).getLsbD (off + i)) :
    (w.extractLsb' off n).toNat = v := by
  have hfield : w.extractLsb' off n = BitVec.ofNat n v := by
    apply BitVec.eq_of_getLsbD_eq
    intro i hi
    rw [BitVec.getLsbD_extractLsb', BitVec.getLsbD_ofNat, h i hi, getLsbD_placed_add hfit hi]
  rw [hfield, BitVec.toNat_ofNat, Nat.mod_eq_of_lt hv]

/-- The round-trip law (R97 (a)), for every layout that meets D2's constraints. -/
theorem unpack_packWith (hlayout : c.TimingOk) {t : BitTiming} (hv : validate t c = true) :
    unpack (packWith c t) = t := by
  obtain ⟨hts2Off, hts1Off, hsjwOff, hword, hsjwW, hts1W, hts2W⟩ := hlayout
  obtain ⟨-, hpresc⟩ := presc_bounds_of_validate hv
  obtain ⟨-, hj, ha, hb⟩ := (validate_ranges c t.presc t.sjw t.ts1 t.ts2).mp hv
  have hts1v : t.ts1 - 1 < 2 ^ c.ts1W := by omega
  have hts2v : t.ts2 - 1 < 2 ^ c.ts2W := by omega
  have hp : ((packWith c t).extractLsb' c.prescOff c.prescW).toNat = t.presc :=
    toNat_extractLsb'_of_placed (by omega) hpresc fun i hi => by
      simp (disch := omega) only [packWith, BitVec.getLsbD_or, getLsbD_placed_of_lt, Bool.false_or]
  have hs : ((packWith c t).extractLsb' c.sjwOff c.sjwW).toNat = t.sjw - 1 :=
    toNat_extractLsb'_of_placed (by omega) (by omega) fun i hi => by
      simp (disch := omega) only [packWith, BitVec.getLsbD_or, getLsbD_placed_of_ge hpresc,
        getLsbD_placed_of_ge hts1v, getLsbD_placed_of_ge hts2v, Bool.or_false]
  have h1 : ((packWith c t).extractLsb' c.ts1Off c.ts1W).toNat = t.ts1 - 1 :=
    toNat_extractLsb'_of_placed (by omega) hts1v fun i hi => by
      simp (disch := omega) only [packWith, BitVec.getLsbD_or, getLsbD_placed_of_lt, getLsbD_placed_of_ge hpresc,
        getLsbD_placed_of_ge hts2v, Bool.or_false, Bool.false_or]
  have h2 : ((packWith c t).extractLsb' c.ts2Off c.ts2W).toNat = t.ts2 - 1 :=
    toNat_extractLsb'_of_placed (by omega) hts2v fun i hi => by
      simp (disch := omega) only [packWith, BitVec.getLsbD_or, getLsbD_placed_of_lt, getLsbD_placed_of_ge hpresc,
        Bool.or_false, Bool.false_or]
  rw [unpack, hp, hs, h1, h2, Nat.sub_add_cancel hj.1, Nat.sub_add_cancel ha.1, Nat.sub_add_cancel hb.1]

/-! ### A supported flag word, for every layout -/

/-- DECODE of a supported word: each sub-mode bit is its flag, and retransmission is the negated one-shot flag (R106). -/
theorem decodeFlags_of_supported (hflags : c.FlagsOk) {f : BitVec c.flagsW} (hf : f &&& ~~~supportedMask c = 0) :
    ∃ m, decodeFlags f = .supported m (!f.getLsbD c.flagOneshot) ∧
      m.getLsbD c.modeLoopback = f.getLsbD c.flagLoopback ∧ m.getLsbD c.modeSilent = f.getLsbD c.flagSilent := by
  obtain ⟨-, -, -, -, -, -, hloopback, hsilent, hne⟩ := hflags
  simp only [decodeFlags, if_neg (not_not.mpr hf), flagBit, ← BitVec.twoPow_eq]
  refine ⟨_, rfl, ?_⟩
  cases f.getLsbD c.flagLoopback <;> cases f.getLsbD c.flagSilent <;>
    simp [hloopback, hsilent, hne, hne.symm]

theorem cfg_flagsOk : cfg.FlagsOk := by decide

/-- OPENREQ on valid operands and supported flags stages the record of R134. -/
theorem execOpenreq_of_supported {p j a b : Nat} {f : BitVec c.flagsW} {m : BitVec c.modeW} {art : Bool}
    (hv : validate ⟨p, j, a, b⟩ c = true) (hd : decodeFlags f = .supported m art) (s : State c) :
    execOpenreq p j a b f s = .next { s with
      pcfg := some { timing := pack ⟨_, hv⟩, mode := m, art := art, filter := buildFilter c }, res := .ok } := by
  simp [execOpenreq, hv, hd, returnOk_eq, setPcfg]

/-- Settles O44: UNPACK inverts PACK's word, and DECODE's mode bits and retransmission are the flags. -/
theorem stagedOperandsAreRecoverable : Obligations.StagedOperandsAreRecoverable := by
  intro p j a b f s hv hf
  obtain ⟨m, hd, hloopback, hsilent⟩ := decodeFlags_of_supported cfg_flagsOk (f := f) (by rwa [supportedMask_cfg])
  exact ⟨_, execOpenreq_of_supported hv hd s, unpack_packWith cfg_timingOk hv, hsilent.symm, hloopback.symm,
    (Bool.not_not _).symm⟩

end Sys2Proof.Machine
end

section
/-!
PROOFS. The bytes of a command and the peripheral's answers (spec/20_memory.md R55, R51, R53), and what an OPEN answers
and hands to the peripheral (44_lifecycle.md R136, 20_memory.md R64, 70_reset_and_hazards.md R182).
-/

namespace Sys2Proof

/-! ### The byte form of a command (log 8) -/

/-- Every instruction that has a word is read back from it. -/
theorem decode_of_encode {i : Instr} {w : Cmd} (hwf : i.wf = true) (he : encode i = some w) : decode w = i := by
  have hform : Laws.EncodedForm.Statement i := by
    cases i with
    | init => exact Laws.EncodedForm.init
    | openreq p j a b f => exact Laws.EncodedForm.openreq p j a b f
    | openCmd => exact Laws.EncodedForm.openCmd
    | close => exact Laws.EncodedForm.close
    | poll => exact Laws.EncodedForm.poll
    | reserved5 => exact Laws.EncodedForm.reserved5
    | reserved6 => exact Laws.EncodedForm.reserved6
    | reserved7 => exact Laws.EncodedForm.reserved7
    | validate | pack | unpack | decode | buildFilter | irqEnable | irqDisable | teardown =>
      exact Laws.EncodedForm.ofNone rfl
  exact hform hwf w he

/-- The 21 bytes of a word are read as that word, whatever follows them. -/
theorem decodeBytes_bytesOfNat_append (w : Cmd) (rest : List Byte) :
    decodeBytes (bytesOfNat cmdBytes w.toNat ++ rest) = .ok (decode w, rest) := by
  have hlt : w.toNat < 2 ^ 163 := w.isLt
  have hlong : ¬ (bytesOfNat cmdBytes w.toNat ++ rest).length < cmdBytes := by
    simp [Laws.length_bytesOfNat]
  have hnum : natOfBytes ((bytesOfNat cmdBytes w.toNat ++ rest).take cmdBytes) = w.toNat := by
    rw [Laws.natOfBytes_bytesOfNat]
    exact Nat.mod_eq_of_lt (hlt.trans (by decide))
  have hrest : (bytesOfNat cmdBytes w.toNat ++ rest).drop cmdBytes = rest :=
    List.drop_left' (Laws.length_bytesOfNat ..)
  have hword : BitVec.ofNat 163 w.toNat = w :=
    (BitVec.ofNat_toNat 163 w).trans (BitVec.setWidth_eq w)
  simp only [decodeBytes, if_neg hlong, hnum, if_pos hlt, hrest, hword]

/-- Settles O8: the bytes are read as the word, and the word as the instruction. -/
theorem commandBytesRoundTrip : Obligations.CommandBytesRoundTrip := by
  intro i bs rest hwf hbytes
  obtain ⟨w, hw, rfl⟩ := Option.map_eq_some_iff.mp hbytes
  rw [decodeBytes_bytesOfNat_append, decode_of_encode hwf hw]

namespace Machine

variable {c : Config}

/-! ### The answers (R53, log 2) -/

theorem nthResult_of_getElem? {s : State c} {k : Nat} {r : PResult} (h : s.answers[k]? = some r) :
    nthResult s k = r := by
  rw [nthResult, h]

theorem nthResult_of_nil {s : State c} (h : s.answers = []) (k : Nat) :
    nthResult s k = Config.freeResult (s.draws + k) := by
  simp [nthResult, h]

theorem dropResults_one_of_cons {s : State c} {r : PResult} {rs : List PResult} (h : s.answers = r :: rs) :
    dropResults 1 s = { s with answers := rs } := by
  simp [dropResults, h]

theorem dropResults_of_nil {s : State c} (h : s.answers = []) (k : Nat) :
    dropResults k s = { s with draws := s.draws + k } := by
  simp [dropResults, h]

/-- Settles O46: a clause for a scripted answer, one for a free one and one for several, and the same for the depths. -/
theorem answersAreTakenInOrder : Obligations.AnswersAreTakenInOrder := by
  refine ⟨fun s r rs h => ?scripted, fun s k h => ?free, fun s j k => ?several, fun s n ns h => ?scriptedDepth,
    fun s h => ?freeDepth⟩
  case scripted => exact ⟨nthResult_of_getElem? (by rw [h]; rfl), dropResults_one_of_cons h⟩
  case free => exact ⟨nthResult_of_nil h k, dropResults_of_nil h k⟩
  case several => exact ⟨nthResult_dropResults s j k, dropResults_dropResults s j k⟩
  case scriptedDepth => simp [nextDepth, dropDepth, h]
  case freeDepth => simp [nextDepth, dropDepth, h]

/-! ### What OPEN answers (R136) -/

/-- The hardware steps of OPEN never stop. -/
theorem exists_openInit_eq_next (p : PendingConfig c) (s : State c) : ∃ t, openInit p s = .next t := by
  simp only [openInit_eq, openFilter_eq, openStart_eq]
  split
  · exact ⟨_, rfl⟩
  · split
    · exact ⟨_, rfl⟩
    · split <;> exact ⟨_, rfl⟩

/-- With a record staged, OPEN is the hardware steps after the teardown. -/
theorem execOpen_of_staged {s : State c} {p : PendingConfig c} (hp : s.pcfg = some p) :
    execOpen s = openInit p (teardownIfOpen s) := by
  rw [execOpen, hp]

/-- The result of OPEN, from the answers of `P_INIT`, `P_CFGFILTER` and `P_START`. -/
def openResult : PResult → PResult → PResult → Result
  | .fail, _, _ => .hardwareInitFailed
  | .ok, .fail, _ => .filterConfigFailed
  | .ok, .ok, .fail => .hardwareInitFailed
  | .ok, .ok, .ok => .ok

theorem openInit_res {p : PendingConfig c} {s t : State c} (h : openInit p s = .next t) :
    t.res = openResult (nthResult s 0) (nthResult s 1) (nthResult s 2) := by
  rcases openInit_cases h with ⟨h0, rfl⟩ | ⟨h0, h1, rfl⟩ | ⟨h0, h1, h2, rfl⟩ | ⟨h0, h1, h2, rfl⟩
  · rw [h0]; rfl
  · rw [h0, h1]; rfl
  · rw [h0, h1, h2]; rfl
  · rw [h0, h1, h2]; rfl

/-- From Disabled, OPEN ends Open exactly when its result is `Ok`. -/
theorem openInit_opened_iff {p : PendingConfig c} {s t : State c} (hs : s.state = .disabled)
    (h : openInit p s = .next t) : t.state = .opened ↔ t.res = .ok := by
  rcases openInit_cases h with ⟨-, rfl⟩ | ⟨-, -, rfl⟩ | ⟨-, -, -, rfl⟩ | ⟨-, -, -, rfl⟩ <;> simp [hs]

/-- The answers that the teardown takes before OPEN's own steps: one for its `P_DEINIT` from Open, none from Disabled. -/
def teardownAnswers : InterfaceState → List PResult
  | .disabled => []
  | .opened => [.ok]

theorem teardownIfOpen_answers {s : State c} {rest : List PResult} (h : s.answers = teardownAnswers s.state ++ rest) :
    (teardownIfOpen s).answers = rest := by
  rcases teardownIfOpen_cases s with ⟨hs, heq⟩ | ⟨hs, heq⟩ <;> simp [heq, h, hs, teardownAnswers]

/-- OPEN with a record staged, when the answers to its three hardware steps are `a`, `b` and `d`. -/
theorem execOpen_of_answers {s : State c} {p : PendingConfig c} {a b d : PResult} (hp : s.pcfg = some p)
    (hanswers : s.answers = teardownAnswers s.state ++ [a, b, d]) :
    ∃ t, execOpen s = .next t ∧ t.res = openResult a b d ∧ (t.state = .opened ↔ t.res = .ok) := by
  obtain ⟨t, ht⟩ := exists_openInit_eq_next p (teardownIfOpen s)
  have hleft : (teardownIfOpen s).answers = [a, b, d] := teardownIfOpen_answers hanswers
  refine ⟨t, (execOpen_of_staged hp).trans ht, ?_, openInit_opened_iff (teardownIfOpen_state s) ht⟩
  rw [openInit_res ht, nthResult_of_getElem? (r := a) (by rw [hleft]; rfl),
    nthResult_of_getElem? (r := b) (by rw [hleft]; rfl), nthResult_of_getElem? (r := d) (by rw [hleft]; rfl)]

/-- Settles O47: each result is the one of some three answers, which can be scripted from every staged state. -/
theorem everyOpenOutcomeHappens : Obligations.EveryOpenOutcomeHappens := by
  intro s hs r hr
  have hanswers : ∃ a b d, openResult a b d = r := by
    simp only [List.mem_cons, List.not_mem_nil, or_false] at hr
    rcases hr with rfl | rfl | rfl
    · exact ⟨.ok, .ok, .ok, rfl⟩
    · exact ⟨.fail, .ok, .ok, rfl⟩
    · exact ⟨.ok, .fail, .ok, rfl⟩
  obtain ⟨a, b, d, rfl⟩ := hanswers
  obtain ⟨p, hp⟩ := Option.isSome_iff_exists.mp hs
  obtain ⟨t, hexec, hres, hopen⟩ := execOpen_of_answers (a := a) (b := b) (d := d)
    (s := { s with answers := teardownAnswers s.state ++ [a, b, d] }) hp rfl
  exact ⟨_, t, hexec, hres, by rw [hopen, hres]⟩

/-! ### What OPEN hands over (R64, R182) -/

/-- The event hands the peripheral values of the record `p`, if it hands it any. -/
def Event.HandsOver (p : PendingConfig c) : Event c → Prop
  | .init mode timing art _ => mode = p.mode ∧ timing = p.timing ∧ art = p.art
  | .cfgFilter f _ => f = p.filter
  | .deinit _ | .start _ | .rxDepth _ _ | .irqEn _ | .irqDis _ => True

theorem Event.HandsOver.eq_init {p : PendingConfig c} {e : Event c} (h : e.HandsOver p) (he : e.isInit = true) :
    ∃ r, e = .init p.mode p.timing p.art r := by
  cases e with
  | init mode timing art r =>
    obtain ⟨rfl, rfl, rfl⟩ := h
    exact ⟨r, rfl⟩
  | deinit | cfgFilter | start | rxDepth | irqEn | irqDis => cases he

/-- A teardown hands nothing over. -/
theorem handsOver_teardownEvents (p : PendingConfig c) (s : State c) : ∀ e ∈ teardownEvents s, e.HandsOver p :=
  List.forall_mem_append.mpr ⟨List.forall_mem_map.mpr fun _ _ => trivial, List.forall_mem_singleton.mpr trivial⟩

theorem teardownIfOpen_events (p : PendingConfig c) (s : State c) :
    ∃ ev, (teardownIfOpen s).ptrace = s.ptrace ++ ev ∧ ∀ e ∈ ev, e.HandsOver p := by
  rcases teardownIfOpen_cases s with ⟨-, heq⟩ | ⟨-, heq⟩ <;> rw [heq]
  · exact ⟨[], (List.append_nil _).symm, nofun⟩
  · exact ⟨teardownEvents s, rfl, handsOver_teardownEvents p s⟩

/-- The hardware steps of OPEN hand over the record they are given, and begin with its `P_INIT`. -/
theorem openInit_events {p : PendingConfig c} {s t : State c} (h : openInit p s = .next t) :
    ∃ r ev, t.ptrace = s.ptrace ++ .init p.mode p.timing p.art r :: ev ∧ ∀ e ∈ ev, e.HandsOver p := by
  rcases openInit_cases h with ⟨-, rfl⟩ | ⟨-, -, rfl⟩ | ⟨-, -, -, rfl⟩ | ⟨-, -, -, rfl⟩ <;>
    exact ⟨_, _, rfl, by simp [Event.HandsOver]⟩

/-- OPEN with the record `p` staged: it makes one next state, calls `P_INIT` with `p`, and hands over nothing else. -/
theorem execOpen_hands_over {p : PendingConfig c} {s : State c} (hp : s.pcfg = some p) :
    ∃ u ev, execOpen s = .next u ∧ u.ptrace = s.ptrace ++ ev ∧ (∃ r, Event.init p.mode p.timing p.art r ∈ ev) ∧
      ∀ e ∈ ev, e.HandsOver p := by
  obtain ⟨u, hu⟩ := exists_openInit_eq_next p (teardownIfOpen s)
  obtain ⟨ev, hdown, hev⟩ := teardownIfOpen_events p s
  obtain ⟨r, ev', hopen, hev'⟩ := openInit_events hu
  refine ⟨u, ev ++ .init p.mode p.timing p.art r :: ev', (execOpen_of_staged hp).trans hu, ?_, ⟨r, by simp⟩, ?_⟩
  · rw [hopen, hdown, List.append_assoc]
  · have hinit : (Event.init p.mode p.timing p.art r).HandsOver p := ⟨rfl, rfl, rfl⟩
    exact List.forall_mem_append.mpr ⟨hev, List.forall_mem_cons.mpr ⟨hinit, hev'⟩⟩

/-- Settles O49: OPENREQ stages the record of its operands, and OPEN hands over the staged record. -/
theorem openUsesTheLatestRequest : Obligations.OpenUsesTheLatestRequest := by
  intro p j a b f s hv m art hd
  obtain ⟨u, ev, hexec, htrace, hinit, hev⟩ := execOpen_hands_over (s := { s with
    pcfg := some { timing := pack ⟨_, hv⟩, mode := m, art := art, filter := buildFilter }, res := .ok }) rfl
  exact ⟨_, u, ev, execOpenreq_of_supported hv hd s, rfl, rfl, hexec, htrace, hinit,
    fun e he => (hev e he).eq_init, fun g r => hev (.cfgFilter g r)⟩

end Machine

end Sys2Proof
end

section
/-!
PROOFS. The command word (spec/30_encoding.md R71 to R78): decoding and encoding against each other, what a step makes of a
word, and DECODE for every flag layout (R75, 41_ctrlmode.md R106, R107).
-/

namespace Sys2Proof

/-! ### Decoding and encoding -/

/-- Settles O5: each instruction that has a word is read back from it, constructor by constructor. -/
theorem decodeInvertsEncode : Obligations.DecodeInvertsEncode :=
  fun _ _ hwf he => decode_of_encode hwf he

/-- `op` stands in the bits 162:160 (R71). -/
theorem extractLsb'_eq_cmdOp (w : Cmd) : w.extractLsb' 160 3 = cmdOp w := rfl

/-- What a port operand carries fits it (R74). -/
@[simp] theorem fitsOperand_toNat (v : BitVec 32) : fitsOperand v.toNat = true := decide_eq_true v.isLt

/-- What the decoder reads from a word fits the operands it is read from (R74). -/
theorem decode_wf (w : Cmd) : (decode w).wf = true := by
  rcases Laws.op_cases (cmdOp w) with h | h | h | h | h | h | h | h
  · rw [Laws.decode_init h]; rfl
  · simp [Laws.decode_openreq h, Instr.wf]
  · rw [Laws.decode_openCmd h]; rfl
  · rw [Laws.decode_close h]; rfl
  · rw [Laws.decode_poll h]; rfl
  · rw [Laws.decode_reserved5 h]; rfl
  · rw [Laws.decode_reserved6 h]; rfl
  · rw [Laws.decode_reserved7 h]; rfl

/-- An OPENREQ is encoded to the word it was read from: all its bits are read. -/
theorem encode_decode_openreq {w : Cmd} (h : cmdOp w = 1) : encode (decode w) = some w := by
  have hop : opField Machine.cfg.opOpenreq = cmdOp w := h.symm
  rw [Laws.decode_openreq h, encode, hop]
  simp only [BitVec.ofNat_toNat, BitVec.setWidth_eq, Laws.assemble_fields]

/-- Every other command is encoded to the word of its `op` with the ignored bits 0 (log 9). -/
theorem encode_decode_of_ne {w : Cmd} (h : cmdOp w ≠ 1) : encode (decode w) = some (assembleN (cmdOp w)) := by
  rcases Laws.op_cases (cmdOp w) with hop | hop | hop | hop | hop | hop | hop | hop
  · rw [Laws.decode_init hop, hop]; rfl
  · exact absurd hop h
  · rw [Laws.decode_openCmd hop, hop]; rfl
  · rw [Laws.decode_close hop, hop]; rfl
  · rw [Laws.decode_poll hop, hop]; rfl
  · rw [Laws.decode_reserved5 hop, hop]; rfl
  · rw [Laws.decode_reserved6 hop, hop]; rfl
  · rw [Laws.decode_reserved7 hop, hop]; rfl

@[simp] theorem cmdOp_assembleN (op : BitVec 3) : cmdOp (assembleN op) = op := Laws.cmdOp_assemble ..

/-- Settles O6: an OPENREQ gives its own word back, the other commands the word of their `op`. -/
theorem encodeInvertsDecode : Obligations.EncodeInvertsDecode := by
  intro w
  refine ⟨decode_wf w, ?_⟩
  simp only [extractLsb'_eq_cmdOp]
  by_cases h : cmdOp w = 1
  · exact ⟨w, encode_decode_openreq h, rfl, fun _ => rfl⟩
  · exact ⟨_, encode_decode_of_ne h, cmdOp_assembleN _, fun hop => absurd hop h⟩

/-- Outside OPENREQ the decoder reads nothing but `op` (R71, R81). -/
theorem decode_assembleN_cmdOp {w : Cmd} (h : cmdOp w ≠ 1) : decode (assembleN (cmdOp w)) = decode w :=
  decode_of_encode (decode_wf w) (encode_decode_of_ne h)

/-- A unit operation has no word (R73). -/
theorem encode_eq_none_of_isUnit {i : Instr} (hi : i.isUnit = true) : encode i = none := by
  cases i with
  | init | openreq | openCmd | close | poll | reserved5 | reserved6 | reserved7 => cases hi
  | validate | pack | unpack | decode | buildFilter | irqEnable | irqDisable | teardown => rfl

/-- What is decoded has a word again. -/
theorem encode_decode_ne_none (w : Cmd) : encode (decode w) ≠ none := by
  by_cases h : cmdOp w = 1
  · simp [encode_decode_openreq h]
  · simp [encode_decode_of_ne h]

/-- Settles O7: a unit operation has no word, and what is decoded has one. -/
theorem unitOperationsHaveNoEncoding : Obligations.UnitOperationsHaveNoEncoding := by
  intro i hi
  have hnone := encode_eq_none_of_isUnit hi
  exact ⟨hnone, fun w hw => encode_decode_ne_none w (hw ▸ hnone)⟩

/-- An assembled OPENREQ word reads back all its fields (R71, R72). -/
theorem decode_assemble_openreq (p s a b f : BitVec 32) :
    decode (assemble 1 p s a b f) = .openreq p.toNat s.toNat a.toNat b.toNat f := by
  simp only [Laws.decode_openreq (Laws.cmdOp_assemble 1 p s a b f), Laws.cmdPresc_assemble, Laws.cmdSjw_assemble,
    Laws.cmdTs1_assemble, Laws.cmdTs2_assemble, Laws.cmdFlags_assemble]

/-- Settles O3: the word is the assembly of its fields, and each value of `op` has its decoding. -/
theorem commandWordIsReadByItsFields : Obligations.CommandWordIsReadByItsFields := by
  intro op p s a b f w
  have hop : cmdOp w = op := Laws.cmdOp_assemble op p s a b f
  refine ⟨fun h => Laws.decode_init (hop.trans h), fun h => ?openreq, fun h => Laws.decode_openCmd (hop.trans h),
    fun h => Laws.decode_close (hop.trans h), fun h => Laws.decode_poll (hop.trans h),
    fun h => Laws.decode_reserved5 (hop.trans h), fun h => Laws.decode_reserved6 (hop.trans h),
    fun h => Laws.decode_reserved7 (hop.trans h)⟩
  case openreq =>
    subst h
    exact decode_assemble_openreq p s a b f

/-- Settles O9: five closed words, each with its fields' values. -/
theorem writtenOutWordsDecode : Obligations.WrittenOutWordsDecode := by
  unfold Obligations.WrittenOutWordsDecode
  decide

namespace Machine

/-! ### What a step makes of a word -/

theorem step_of_port_cons {s : State} {w : Cmd} {rest : List Cmd} (h : s.port = w :: rest) :
    step s = exec (decode w) { s with port := rest } := by
  simp only [step, h]

theorem step_of_port_nil {s : State} (h : s.port = []) : step s = .next s := by
  simp only [step, h]

/-- Settles O11: the step's two cases, and the word of an instruction decodes to it. -/
theorem stepRunsTheDecodedCommand : Obligations.StepRunsTheDecodedCommand := by
  refine ⟨fun s w rest hp => step_of_port_cons hp, fun s i w rest hwf he hp => ?_, fun s hp => step_of_port_nil hp⟩
  rw [step_of_port_cons hp, decode_of_encode hwf he]

/-- Settles O4: both words decode as the word of their `op` with the ignored bits 0. -/
theorem ignoredBitsChangeNothing : Obligations.IgnoredBitsChangeNothing := by
  intro s w w' rest hop hne
  simp only [extractLsb'_eq_cmdOp] at hop hne
  have hdecode : decode w = decode w' := by
    rw [← decode_assembleN_cmdOp hne, hop, decode_assembleN_cmdOp (hop ▸ hne)]
  rw [step_of_port_cons rfl, step_of_port_cons rfl, hdecode]

/-- The codes from 5 on name no command (R78). -/
theorem commandOf_of_five_le {op : BitVec 3} (h : 5 ≤ op) : commandOf cfg op.toNat = .reserved op.toNat := by
  revert op
  decide

/-- A word whose code names no command is refused (R78). -/
theorem accept_of_reserved {c : Config} {w : BitVec c.cmdW} {code : Nat}
    (h : commandOf c (cmdOpWith c w).toNat = .reserved code) (s : State c) :
    accept w s = .refused (.reservedCommand code) := by
  simp only [accept, h, refuseReserved]

/-- Settles O10: the block accepts no word with a reserved code, and the three named instructions are refusals. -/
theorem reservedCodesAreRefused : Obligations.ReservedCodesAreRefused := by
  refine ⟨fun s w rest op hop hle => ?_, fun s => ⟨rfl, rfl, rfl, rfl⟩⟩
  subst hop
  rw [step_of_port_cons rfl, exec_decode_eq_accept]
  exact accept_of_reserved (commandOf_of_five_le hle) _

/-! ### DECODE for every flag layout -/

variable {c : Config}

/-- The supported mask has the three flag positions set and no other bit (R75). -/
theorem getLsbD_supportedMask {k : Nat} (hk : k < c.flagsW) : (supportedMask c).getLsbD k = true ↔
    k = c.flagLoopback ∨ k = c.flagSilent ∨ k = c.flagOneshot := by
  simp only [supportedMask, ← BitVec.twoPow_eq, BitVec.getLsbD_or, BitVec.getLsbD_twoPow]
  grind

/-- A flag word is inside the supported mask when each of its set bits is one of the three flags (R107). -/
theorem and_not_supportedMask_eq_zero_iff (f : BitVec c.flagsW) : f &&& ~~~supportedMask c = 0 ↔
    ∀ k, k < c.flagsW → f.getLsbD k = true → k = c.flagLoopback ∨ k = c.flagSilent ∨ k = c.flagOneshot := by
  constructor
  · intro h k hk hf
    have hbit : (f &&& ~~~supportedMask c).getLsbD k = false := by simp [h]
    refine (getLsbD_supportedMask hk).mp ?_
    simpa [hk, hf] using hbit
  · intro h
    apply BitVec.eq_of_getLsbD_eq
    intro k hk
    cases hf : f.getLsbD k with
    | false => simp [hf]
    | true => simp [hk, (getLsbD_supportedMask hk).mpr (h k hk hf)]

/-- A bit outside the supported mask makes DECODE answer the error value (R107). -/
theorem decodeFlags_of_unsupported {f : BitVec c.flagsW} (hf : f &&& ~~~supportedMask c ≠ 0) :
    decodeFlags f = .unsupported := if_pos hf

/-- Settles O22: a word of the three flags alone is inside the supported mask, a word with another bit is not. -/
theorem everyFlagLayoutDecodes : Obligations.EveryFlagLayoutDecodes := by
  intro c hflags
  refine ⟨fun f hf => ?supported, fun f k hk hf hloopback hsilent honeshot => ?unsupported⟩
  case supported => exact decodeFlags_of_supported hflags ((and_not_supportedMask_eq_zero_iff f).mpr hf)
  case unsupported =>
    refine decodeFlags_of_unsupported fun hzero => ?_
    rcases (and_not_supportedMask_eq_zero_iff f).mp hzero k hk hf with h | h | h
    · exact hloopback h
    · exact hsilent h
    · exact honeshot h

end Machine

end Sys2Proof
end

section
/-!
PROOFS. The bit-timing unit (spec/40_bittiming.md): VALIDATE's ranges, PACK on and off its precondition, UNPACK's fields,
and PACK as a bijection between the valid inputs and the well-formed words (R92, R93, R95, R97).
-/

namespace Sys2Proof.Machine

variable {c : Config}

/-! ### VALIDATE (R92) -/

/-- Settles O12: VALIDATE latches its Bool, which is the decision of the four ranges. -/
theorem validateAnswersTheRanges : Obligations.ValidateAnswersTheRanges := by
  intro p j a b s v
  have hvalue : validate ⟨p, j, a, b⟩ = v := Bool.eq_iff_iff.mpr ((validate_iff p j a b).trans decide_eq_true_iff.symm)
  rw [← hvalue]
  rfl

/-! ### PACK on and off its precondition (R93, U2) -/

theorem execPack_of_valid {p j a b : Nat} (hv : validate ⟨p, j, a, b⟩ c = true) (s : State c) :
    execPack p j a b s = .next { s with unitOut := .word (pack ⟨_, hv⟩) } := dif_pos hv

theorem execPack_of_invalid {p j a b : Nat} (hv : ¬ validate ⟨p, j, a, b⟩ c = true) (s : State c) :
    execPack p j a b s = .fault .packUndefined := dif_neg hv

/-- Settles O14: outside the four ranges VALIDATE answers false, and PACK is not defined there. -/
theorem packStopsOffItsPrecondition : Obligations.PackStopsOffItsPrecondition :=
  fun p j a b s hranges => execPack_of_invalid (mt (validate_iff p j a b).mp hranges) s

/-! ### The round trip for every layout (R97, D2) -/

/-- Settles O17, by the fields that each part of PACK's word occupies. -/
theorem everyAllowedLayoutRoundTrips : Obligations.EveryAllowedLayoutRoundTrips :=
  fun _ _ hlayout hv => unpack_packWith hlayout hv

/-! ### A word of the decided layout by its fields -/

/-- A field that a mask keeps whole is read through the mask. -/
theorem extractLsb'_and_of_allOnes {n off len : Nat} {w mask : BitVec n} (h : mask.extractLsb' off len = .allOnes len) :
    (w &&& mask).extractLsb' off len = w.extractLsb' off len := by
  rw [BitVec.extractLsb'_and, h, BitVec.and_allOnes]

/-- UNPACK ignores the reserved bits (R95). -/
theorem unpack_and_fieldMask (w : Word) : unpack (w &&& 0x03F703FF) = unpack w := by
  rw [unpack_fields, unpack_fields, extractLsb'_and_of_allOnes (off := 0) (by decide),
    extractLsb'_and_of_allOnes (off := 24) (by decide), extractLsb'_and_of_allOnes (off := 20) (by decide),
    extractLsb'_and_of_allOnes (off := 16) (by decide)]

/-- The three gaps between the fields, 31:26, 19 and 15:10, are 0 where the reserved bits are (10_state.md R25). -/
theorem gaps_eq_zero_of_reserved_eq_zero {w : Word} (h : w &&& 0xFC08FC00 = 0) :
    (w.extractLsb' 26 6).toNat = 0 ∧ (w.extractLsb' 19 1).toNat = 0 ∧ (w.extractLsb' 10 6).toNat = 0 := by
  rw [← extractLsb'_and_of_allOnes (w := w) (mask := 0xFC08FC00) (off := 26) (by decide),
    ← extractLsb'_and_of_allOnes (w := w) (mask := 0xFC08FC00) (off := 19) (by decide),
    ← extractLsb'_and_of_allOnes (w := w) (mask := 0xFC08FC00) (off := 10) (by decide), h]
  decide

/-- A word with reserved bits 0 is the sum of its four fields, each at its offset (R93). -/
theorem toNat_eq_sum_of_reserved_eq_zero {w : Word} (h : w &&& 0xFC08FC00 = 0) :
    w.toNat = (w.extractLsb' 24 2).toNat * 2 ^ 24 + (w.extractLsb' 20 4).toNat * 2 ^ 20 +
      (w.extractLsb' 16 3).toNat * 2 ^ 16 + (w.extractLsb' 0 10).toNat := by
  obtain ⟨hhigh, hmid, hlow⟩ := gaps_eq_zero_of_reserved_eq_zero h
  have hlt := word_lt w
  simp only [BitVec.extractLsb'_toNat, Nat.shiftRight_eq_div_pow] at hhigh hmid hlow ⊢
  omega

/-- Two words with reserved bits 0 are one word when UNPACK reads the same from both. -/
theorem eq_of_unpack_eq {w w' : Word} (h : w &&& 0xFC08FC00 = 0) (h' : w' &&& 0xFC08FC00 = 0)
    (heq : unpack w = unpack w') : w = w' := by
  rw [unpack_fields, unpack_fields, BitTiming.mk.injEq] at heq
  obtain ⟨hp, hj, ha, hb⟩ := heq
  rw [← BitVec.toNat_inj, toNat_eq_sum_of_reserved_eq_zero h, toNat_eq_sum_of_reserved_eq_zero h']
  omega

/-- What UNPACK reads is in VALIDATE's ranges when the prescaler field is not 0: a field is as wide as its range (R95). -/
theorem validate_unpack {w : Word} (hpresc : w.extractLsb' 0 10 ≠ 0) : validate (unpack w) = true := by
  have hp : 1 ≤ (w.extractLsb' 0 10).toNat := Nat.one_le_iff_ne_zero.mpr fun h => hpresc (BitVec.eq_of_toNat_eq h)
  have hpmax := (w.extractLsb' 0 10).isLt
  have hj := (w.extractLsb' 24 2).isLt
  have ha := (w.extractLsb' 20 4).isLt
  have hb := (w.extractLsb' 16 3).isLt
  rw [unpack_fields, validate_iff]
  omega

/-- Settles O15: UNPACK latches the four fields, which no reserved bit is part of. -/
theorem unpackReadsTheFields : Obligations.UnpackReadsTheFields :=
  fun w _ => ⟨rfl, unpack_and_fieldMask w, fun _ hpresc => validate_unpack hpresc⟩

/-! ### PACK's word -/

theorem pack_and_reserved (t : ValidTiming) : pack t &&& 0xFC08FC00 = 0 := by
  rw [← reservedTimingBits_cfg]
  exact packWith_and_reserved cfg_timingOk t.property

/-- UNPACK inverts PACK (R97 (a)). -/
@[simp] theorem unpack_pack (t : ValidTiming) : unpack (pack t) = t.val := unpack_packWith cfg_timingOk t.property

/-- Settles O13: the fields are what UNPACK reads back, the reserved bits are 0, and so the word is the fields' sum. -/
theorem packPlacesTheFields : Obligations.PackPlacesTheFields := by
  intro p j a b s hv
  have hreserved := pack_and_reserved ⟨_, hv⟩
  have hfields := unpack_pack ⟨_, hv⟩
  rw [unpack_fields, BitTiming.mk.injEq] at hfields
  obtain ⟨hp, hj, ha, hb⟩ := hfields
  have hj' := Nat.eq_sub_of_add_eq hj
  have ha' := Nat.eq_sub_of_add_eq ha
  have hb' := Nat.eq_sub_of_add_eq hb
  refine ⟨_, execPack_of_valid hv s, hj', ha', hb', hp, hreserved, ?_⟩
  rw [toNat_eq_sum_of_reserved_eq_zero hreserved, hj', ha', hb', hp]

/-- PACK inverts UNPACK on well-formed words (R97 (b)). -/
theorem pack_unpack {w : Word} (hw : wellFormedWord w = true) :
    ∃ hv : validate (unpack w) = true, pack ⟨unpack w, hv⟩ = w := by
  obtain ⟨hreserved, hpresc⟩ := (wellFormedWord_iff w).mp hw
  exact ⟨validate_unpack hpresc, eq_of_unpack_eq (pack_and_reserved _) hreserved (unpack_pack _)⟩

/-- Two valid inputs with one word are one input: UNPACK reads both back from it. -/
theorem pack_injective : Function.Injective (pack (c := cfg)) := fun t u h =>
  Subtype.ext (by rw [← unpack_pack t, h, unpack_pack u])

/-! ### The number of valid inputs (R97 (c)) -/

/-- The valid input that one number out of each of the four ranges makes. -/
def validTimingOfRanges : Set.Icc 1 1023 × Set.Icc 1 4 × Set.Icc 1 16 × Set.Icc 1 8 → ValidTiming
  | (p, j, a, b) => ⟨⟨p, j, a, b⟩, (validate_iff p j a b).mpr ⟨p.property, j.property, a.property, b.property⟩⟩

theorem validTimingOfRanges_bijective : Function.Bijective validTimingOfRanges := by
  constructor
  · rintro ⟨p, j, a, b⟩ ⟨p', j', a', b'⟩ h
    simpa only [validTimingOfRanges, Subtype.mk.injEq, BitTiming.mk.injEq, Subtype.coe_inj, Prod.mk.injEq] using h
  · rintro ⟨⟨p, j, a, b⟩, hv⟩
    obtain ⟨hp, hj, ha, hb⟩ := (validate_iff p j a b).mp hv
    exact ⟨(⟨p, hp⟩, ⟨j, hj⟩, ⟨a, ha⟩, ⟨b, hb⟩), rfl⟩

theorem card_validTiming : Nat.card ValidTiming = 523776 := by
  rw [← Nat.card_eq_of_bijective _ validTimingOfRanges_bijective]
  simp

/-- Settles O16: PACK and UNPACK invert each other between the valid inputs and the well-formed words. -/
theorem packIsALosslessBijection : Obligations.PackIsALosslessBijection :=
  ⟨unpack_pack, fun _ hw => pack_unpack hw, fun t => wellFormedWord_pack cfg_timingOk t, fun _ _ h => pack_injective h,
    card_validTiming⟩

end Sys2Proof.Machine
end

section
/-!
PROOFS. The mode-to-register decoder at the decided record (spec/41_ctrlmode.md R106 to R109). The decided positions make
`mode` the two low bits of a supported word; `decodeFlags_eq_supported_iff` says so, and gives the table, its inverse and
the effect of inverting a flag.
-/

namespace Sys2Proof.Machine

variable {c : Config}

/-! ### Which words are supported (R107) -/

theorem decodeFlags_eq_unsupported_iff (f : BitVec c.flagsW) :
    decodeFlags f = .unsupported ↔ f &&& ~~~supportedMask c ≠ 0 := by
  refine ⟨fun h hzero => ?_, decodeFlags_of_unsupported⟩
  simp [decodeFlags, hzero] at h

/-- Settles O19: a word outside the supported mask is one with a bit set off the three flag positions. -/
theorem anyOtherFlagIsUnsupported : Obligations.AnyOtherFlagIsUnsupported := by
  intro f
  rw [decodeFlags_eq_unsupported_iff, Ne, and_not_supportedMask_eq_zero_iff]
  push Not
  simp only [and_assoc, and_comm]

/-- Inverting flags of a word by a supported word leaves it supported: no bit off the flag positions is touched. -/
theorem xor_and_not_supportedMask {f d : BitVec c.flagsW} (hf : f &&& ~~~supportedMask c = 0)
    (hd : d &&& ~~~supportedMask c = 0) : (f ^^^ d) &&& ~~~supportedMask c = 0 := by
  rw [and_not_supportedMask_eq_zero_iff] at hf hd ⊢
  intro k hk hbit
  rw [BitVec.getLsbD_xor] at hbit
  cases hfk : f.getLsbD k with
  | true => exact hf k hk hfk
  | false => exact hd k hk (by simpa [hfk] using hbit)

/-! ### The pair of a supported word (R106) -/

/-- A sub-mode with the bits of two flags is the low end of the flag word. -/
theorem eq_setWidth_of_getLsbD {f : Flags} {m : Mode} (h0 : m.getLsbD 0 = f.getLsbD 0)
    (h1 : m.getLsbD 1 = f.getLsbD 1) : m = f.setWidth 2 := by
  apply BitVec.eq_of_getLsbD_eq
  intro k hk
  obtain rfl | rfl : k = 0 ∨ k = 1 := Nat.le_one_iff_eq_zero_or_eq_one.mp (Nat.le_of_lt_succ hk)
  · simpa using h0
  · simpa using h1

theorem decodeFlags_cfg_of_supported {f : Flags} (hf : f &&& ~~~supportedMask = 0) :
    decodeFlags f = .supported (f.setWidth 2) (!f.getLsbD 3) := by
  obtain ⟨m, hd, hloopback, hsilent⟩ := decodeFlags_of_supported cfg_flagsOk hf
  rw [hd, eq_setWidth_of_getLsbD hloopback hsilent]

/-- DECODE answers a pair for a word inside the supported mask: its two low bits and its negated bit 3. -/
theorem decodeFlags_eq_supported_iff {f : Flags} {m : Mode} {art : Bool} : decodeFlags f = .supported m art ↔
    f &&& ~~~supportedMask = 0 ∧ m = f.setWidth 2 ∧ art = !f.getLsbD 3 := by
  by_cases hf : f &&& ~~~supportedMask = 0
  · rw [decodeFlags_cfg_of_supported hf, ModeResult.supported.injEq]
    simp only [hf, true_and, eq_comm]
  · simp only [decodeFlags_of_unsupported hf, hf, false_and, reduceCtorEq]

/-- The pair of bits 1 and 0 is the low end of the word. -/
theorem extractLsb'_append_extractLsb'_eq_setWidth (f : Flags) :
    f.extractLsb' 1 1 ++ f.extractLsb' 0 1 = f.setWidth 2 := by
  rw [BitVec.extractLsb'_append_extractLsb'_eq_extractLsb' (start₂ := 1) (start₁ := 0) rfl,
    BitVec.setWidth_eq_extractLsb' (by decide)]

/-- Settles O18: DECODE latches its value, and a supported word's two low bits are its silent and loopback flags. -/
theorem decodeAnswersModeAndRetransmission : Obligations.DecodeAnswersModeAndRetransmission := by
  intro f s d
  have hvalue : decodeFlags f = d := by
    by_cases hf : f &&& ~~~supportedMask = 0
    · rw [decodeFlags_cfg_of_supported hf, ← extractLsb'_append_extractLsb'_eq_setWidth]
      exact (if_neg (not_not.mpr (supportedMask_cfg ▸ hf))).symm
    · rw [decodeFlags_of_unsupported hf]
      exact (if_pos (supportedMask_cfg ▸ hf)).symm
  rw [← hvalue]
  rfl

/-! ### The table and its inverse (R108) -/

/-- The one-shot flag of a word, as a word of its own, has no bit but bit 3. -/
theorem getLsbD_oneShotFlag (b : Bool) (k : Nat) :
    (if (!b) = true then 0 else 8 : Flags).getLsbD k = (b && decide (k = 3)) := by
  have h8 : (8 : Flags) = BitVec.twoPow 32 3 := rfl
  cases b
  · simp
  · simp [h8, BitVec.getLsbD_twoPow, eq_comm]

/-- A supported word is put together from its two low bits and its bit 3. -/
theorem eq_or_of_supported {f : Flags} (hf : f &&& ~~~supportedMask = 0) :
    f = (f.setWidth 2).setWidth 32 ||| (if (!f.getLsbD 3) = true then 0 else 8) := by
  rw [and_not_supportedMask_eq_zero_iff] at hf
  apply BitVec.eq_of_getLsbD_eq
  intro k hk
  rw [BitVec.getLsbD_or, getLsbD_oneShotFlag]
  cases hfk : f.getLsbD k with
  | true => rcases hf k hk hfk with rfl | rfl | rfl <;> simp [hfk]
  | false =>
    by_cases hk3 : k = 3
    · simp [← hk3, hfk]
    · simp [hk3, hfk]

/-- Settles O20: each row meets the equation of a supported word, and the equation gives the flags back. -/
theorem decodeTableIsOneToOne : Obligations.DecodeTableIsOneToOne := by
  refine ⟨?table, fun f m art h => ?inverse⟩
  case table => simp [decodeFlags_eq_supported_iff]
  case inverse =>
    obtain ⟨hf, rfl, rfl⟩ := decodeFlags_eq_supported_iff.mp h
    have hsilent : f.getLsbD 1 = (f.setWidth 2).getLsbD 1 := by simp
    have hloopback : f.getLsbD 0 = (f.setWidth 2).getLsbD 0 := by simp
    exact ⟨hsilent, hloopback, (Bool.not_not _).symm, eq_or_of_supported hf⟩

/-! ### Inverting a flag (R109) -/

/-- Inverting supported flags inverts the mode bits and the retransmission bit that they decode to, and no other. -/
theorem decodeFlags_xor {f d : Flags} {m : Mode} {art : Bool} (h : decodeFlags f = .supported m art)
    (hd : d &&& ~~~supportedMask = 0) :
    decodeFlags (f ^^^ d) = .supported (m ^^^ d.setWidth 2) (art ^^ d.getLsbD 3) := by
  obtain ⟨hf, rfl, rfl⟩ := decodeFlags_eq_supported_iff.mp h
  rw [decodeFlags_cfg_of_supported (xor_and_not_supportedMask hf hd), BitVec.setWidth_xor, BitVec.getLsbD_xor,
    Bool.not_xor]

/-- Settles O21: one-shot is bit 3, which no mode bit is read from; loopback and silent are the mode bits. -/
theorem modeAndRetransmissionAreIndependent : Obligations.ModeAndRetransmissionAreIndependent := by
  intro f m art h
  refine ⟨?oneshot, ?loopback, ?silent⟩
  case oneshot => simpa using decodeFlags_xor h (d := 8) (by decide)
  case loopback => simpa using decodeFlags_xor h (d := 1) (by decide)
  case silent => simpa using decodeFlags_xor h (d := 2) (by decide)

end Sys2Proof.Machine
end

section
/-!
PROOFS. The filter configurator (spec/42_filter.md R115 to R117). The built record has mask 0 whatever the configuration,
and a filter with mask 0 compares no bit; at the decided record it is the literal of R116.
-/

namespace Sys2Proof.Machine

/-! ### The built record (R116) -/

@[simp] theorem buildFilter_mask (c : Config) : (buildFilter c).mask = 0 := rfl

theorem buildFilter_cfg :
    buildFilter = { id := 0, mask := 0, scale := 1, mode := 0, queue := 0, bank := 0, active := 1 } := rfl

theorem exec_buildFilter (s : State) : exec .buildFilter s = .next (setUnitOut (.filter buildFilter) s) := rfl

/-- Settles O23: BUILDFILTER latches the record that `buildFilter_cfg` writes out, whose 72 bits are a closed value. -/
theorem buildFilterAnswersTheFixedRecord : Obligations.BuildFilterAnswersTheFixedRecord := by
  refine ⟨fun s => ?latched, ?bits⟩
  case latched =>
    rw [exec_buildFilter, buildFilter_cfg]
    rfl
  case bits =>
    rw [buildFilter_cfg]
    rfl

/-! ### What passes a filter (R115, and R117 for the comparison) -/

/-- An identifier passes exactly when it agrees with the filter's pattern at every bit that the mask selects. -/
theorem Filter.passes_iff {f : Filter} {identifier : BitVec 32} : f.passes identifier = true ↔
    ∀ k, f.mask.getLsbD k = true → identifier.getLsbD k = f.id.getLsbD k := by
  rw [Filter.passes, decide_eq_true_iff]
  constructor
  · intro h k hk
    have hbit := congrArg (BitVec.getLsbD · k) h
    simpa [hk] using hbit
  · intro h
    apply BitVec.eq_of_getLsbD_eq
    intro k _
    cases hk : f.mask.getLsbD k with
    | false => simp [hk]
    | true => simp [hk, h k hk]

/-- The filter built at any configuration record selects no bit to compare. -/
theorem buildFilter_passes (c : Config) (identifier : BitVec 32) : (buildFilter c).passes identifier = true :=
  Filter.passes_iff.mpr fun k hk => by simp at hk

/-- Settles O24: the mask of the built filter is 0, so the comparison is vacuous at every bit. -/
theorem builtFilterPassesEveryIdentifier : Obligations.BuiltFilterPassesEveryIdentifier :=
  buildFilter_passes cfg

end Sys2Proof.Machine
end

section
/-!
PROOFS. The interrupt gate (spec/43_irqgate.md R124 and R125). At every configuration record the gate's five calls are
the record's order of the kinds (`irqEnable_eq`, `irqDisable_eq`); the decided record's order is D9's.
-/

namespace Sys2Proof.Machine

/-- R123's five kinds in the order of D9. -/
theorem irqKinds_cfg :
    irqKinds = [.errorWarning, .errorPassive, .busOff, .lastErrorCode, .genericError] := rfl

theorem exec_irqEnable (s : State) : exec .irqEnable s = .next (irqEnable s) := rfl

theorem exec_irqDisable (s : State) : exec .irqDisable s = .next (irqDisable s) := rfl

/-- Settles O25: the enable events of the gate are those of the decided record's five kinds. -/
theorem irqEnableSetsAllFive : Obligations.IrqEnableSetsAllFive := by
  intro s
  rw [exec_irqEnable, irqEnable_eq, irqKinds_cfg]
  rfl

/-- Settles O26: the disable events of the gate are those of the decided record's five kinds, and no `IEN` is read. -/
theorem irqDisableClearsAllFive : Obligations.IrqDisableClearsAllFive := by
  intro s
  rw [exec_irqDisable, irqDisable_eq, irqKinds_cfg]
  rfl

end Sys2Proof.Machine
end

section
/-!
PROOFS. The lifecycle commands (spec/44_lifecycle.md R133 to R143): the whole next state of each command on each of its
paths, and the events each command appends.
-/

namespace Sys2Proof.Machine

variable {c : Config}

/-! ### INIT and TEARDOWN (R133, R139) -/

/-- Settles O27: TEARDOWN as one record, whose events are the gate's five and the `P_DEINIT`. -/
theorem teardownRunsItsSequence : Obligations.TeardownRunsItsSequence :=
  fun s => congrArg Host.Outcome.next (teardown_eq s)

theorem execInit_eq (s : State c) :
    execInit s = .next { teardownIfOpen s with state := .disabled, pcfg := none, res := .ok } := rfl

/-- Settles O28: INIT's writes after the teardown, which only runs from Open. -/
theorem initAlwaysSucceeds : Obligations.InitAlwaysSucceeds := by
  refine fun s => ⟨fun hs => (execInit_eq s).trans ?disabled, fun hs => (execInit_eq s).trans ?opened⟩
  case disabled => rw [teardownIfOpen_disabled hs]
  case opened =>
    rw [teardownIfOpen_opened hs, teardown_eq]
    rfl

/-! ### OPENREQ (R134) -/

theorem execOpenreq_of_outOfRange {p j a b : Nat} (hv : validate ⟨p, j, a, b⟩ c = false) (f : BitVec c.flagsW)
    (s : State c) : execOpenreq p j a b f s = .next { s with res := .configurationOutOfRange } := by
  simp [execOpenreq, hv, raise_eq]

theorem execOpenreq_of_unsupported {p j a b : Nat} {f : BitVec c.flagsW} (hv : validate ⟨p, j, a, b⟩ c = true)
    (hd : decodeFlags f = .unsupported) (s : State c) :
    execOpenreq p j a b f s = .next { s with res := .unsupportedMode } := by
  simp [execOpenreq, hv, hd, raise_eq]

/-- Settles O29: a lemma per path of OPENREQ. -/
theorem openreqStagesOrReports : Obligations.OpenreqStagesOrReports :=
  fun _ _ _ _ f s => ⟨fun hv => execOpenreq_of_outOfRange hv f s, fun hv hd => execOpenreq_of_unsupported hv hd s,
    fun hv _ _ hd => execOpenreq_of_supported hv hd s⟩

/-! ### CLOSE (R138) -/

theorem execClose_of_disabled {s : State c} (hs : s.state = .disabled) : execClose s = .next { s with
    ien := irqNone, res := .ok, ptrace := s.ptrace ++ (irqKinds c).map Event.irqDis } := by
  simp only [execClose, hs, irqDisable_eq, returnOk_eq]

theorem execClose_of_opened {s : State c} (hs : s.state = .opened) : execClose s = .next { dropResults 1 s with
    state := .disabled, ien := irqNone, res := if nthResult s 0 = .fail then .deinitFailed else .ok,
    ptrace := s.ptrace ++ teardownEvents s } := by
  simp only [execClose, hs, irqDisable_eq, closeFromOpen_eq, List.append_assoc]
  rfl

theorem execClose_state {s t : State c} (h : execClose s = .next t) : t.state = .disabled := by
  rcases execClose_cases h with ⟨hs, rfl⟩ | ⟨-, rfl⟩
  · exact hs
  · rfl

/-- Settles O31: CLOSE's two paths, from Disabled and from Open. -/
theorem closeDisablesThenDeinitializes : Obligations.CloseDisablesThenDeinitializes :=
  fun _ => ⟨execClose_of_disabled, execClose_of_opened⟩

/-- Settles O50: the first CLOSE ends Disabled, so the second takes the path without a `P_DEINIT`. -/
theorem secondCloseMakesNoDeinit : Obligations.SecondCloseMakesNoDeinit := by
  intro s t h
  have ht : t.state = .disabled := execClose_state h
  exact ⟨_, execClose_of_disabled ht, rfl, ht, rfl, rfl, rfl⟩

/-! ### POLL (R140) -/

theorem execPoll_of_disabled {s : State c} (hs : s.state = .disabled) :
    execPoll s = .next { s with count := 0, res := .ok } := by
  simp only [execPoll, hs, returnOk_eq, setCount]

theorem execPoll_of_opened {s : State c} (hs : s.state = .opened) : execPoll s = .next { dropDepth s with
    count := nextDepth s, res := .ok, ptrace := s.ptrace ++ [.rxDepth c.qPrimary (nextDepth s)] } := by
  simp only [execPoll, hs, returnOk_eq, setCount, pRxDepth_eq]

/-- Settles O33: POLL's two paths; the decided record's primary queue is queue 0. -/
theorem pollGuardsTheHardware : Obligations.PollGuardsTheHardware :=
  fun _ => ⟨execPoll_of_disabled, execPoll_of_opened⟩

/-! ### OPEN on every path (R136, R137) -/

/-- Where the hardware steps of OPEN end, by the answers of `P_INIT`, `P_CFGFILTER` and `P_START` (the rows of R137's
table after the teardown). -/
def openInitEnd (p : PendingConfig c) (s : State c) : State c :=
  match nthResult s 0, nthResult s 1, nthResult s 2 with
  | .fail, _, _ => { dropResults 1 s with
      res := .hardwareInitFailed, ptrace := s.ptrace ++ [.init p.mode p.timing p.art .fail] }
  | .ok, .fail, _ => { dropResults 3 s with
      res := .filterConfigFailed,
      ptrace := s.ptrace ++ [.init p.mode p.timing p.art .ok, .cfgFilter p.filter .fail, .deinit (nthResult s 2)] }
  | .ok, .ok, .fail => { dropResults 4 s with
      res := .hardwareInitFailed,
      ptrace := s.ptrace ++ [.init p.mode p.timing p.art .ok, .cfgFilter p.filter .ok, .start .fail,
        .deinit (nthResult s 3)] }
  | .ok, .ok, .ok => { dropResults 3 s with
      state := .opened, ien := irqAll, res := .ok,
      ptrace := s.ptrace ++ ([.init p.mode p.timing p.art .ok, .cfgFilter p.filter .ok, .start .ok] ++
        (irqKinds c).map Event.irqEn) }

theorem openInit_eq_next (p : PendingConfig c) (s : State c) : openInit p s = .next (openInitEnd p s) := by
  obtain ⟨t, ht⟩ := exists_openInit_eq_next p s
  rw [ht, openInitEnd]
  rcases openInit_cases ht with ⟨h0, rfl⟩ | ⟨h0, h1, rfl⟩ | ⟨h0, h1, h2, rfl⟩ | ⟨h0, h1, h2, rfl⟩
  · simp only [h0]
  · simp only [h0, h1]
  · simp only [h0, h1, h2]
  · simp only [h0, h1, h2]

theorem execOpen_of_unstaged {s : State c} (hs : s.staged = false) :
    execOpen s = .next { s with res := .notConfigured } := by
  have hnone : s.pcfg = none := by simpa [State.staged] using hs
  simp only [execOpen, hnone, raise_eq]

/-- What OPEN's hardware steps start from: the state after the teardown if it was Open, else the state itself. -/
theorem teardownIfOpen_eq (s : State c) : teardownIfOpen s =
    { dropResults (if s.state = .opened then 1 else 0) s with
      state := .disabled
      ien := if s.state = .opened then irqNone else s.ien
      ptrace := s.ptrace ++ if s.state = .opened then teardownEvents s else [] } := by
  rcases teardownIfOpen_cases s with ⟨hs, heq⟩ | ⟨hs, heq⟩
  · rw [heq, hs, if_neg nofun, if_neg nofun, if_neg nofun, dropResults_zero, List.append_nil, ← hs]
  · rw [heq, if_pos hs, if_pos hs, if_pos hs]

theorem nthResult_teardownIfOpen (s : State c) (k : Nat) :
    nthResult (teardownIfOpen s) k = nthResult s ((if s.state = .opened then 1 else 0) + k) := by
  rw [teardownIfOpen_eq]
  exact nthResult_dropResults ..

theorem dropResults_teardownIfOpen (s : State c) (k : Nat) : dropResults k (teardownIfOpen s) =
    { dropResults ((if s.state = .opened then 1 else 0) + k) s with
      state := .disabled
      ien := if s.state = .opened then irqNone else s.ien
      ptrace := s.ptrace ++ if s.state = .opened then teardownEvents s else [] } := by
  rw [teardownIfOpen_eq, ← dropResults_dropResults]
  rfl

/-- Settles O30: a row of R137's table for each way the hardware steps end, read after the teardown. -/
theorem openFollowsItsLines : Obligations.OpenFollowsItsLines := by
  refine fun s => ⟨execOpen_of_unstaged, fun p hp => ?staged⟩
  intro d off T I F S
  have hopen : exec .openCmd s = .next (openInitEnd p (teardownIfOpen s)) :=
    (execOpen_of_staged hp).trans (openInit_eq_next p _)
  have hanswer : ∀ k, nthResult (teardownIfOpen s) k = nthResult s (d + k) := nthResult_teardownIfOpen s
  have htrace : (teardownIfOpen s).ptrace = s.ptrace ++ T := by
    rw [teardownIfOpen_eq]
    rfl
  have hdrop : ∀ k, dropResults k (teardownIfOpen s) =
      { dropResults (d + k) s with state := .disabled, ien := off, ptrace := s.ptrace ++ T } :=
    dropResults_teardownIfOpen s
  refine ⟨fun h0 => ?init, fun h0 h1 => ?filter, fun h0 h1 h2 => ?start, fun h0 h1 h2 => ?opened⟩ <;>
    rw [hopen, openInitEnd]
  case init => simp only [I, hanswer, hdrop, htrace, h0, Nat.add_zero, List.append_assoc]
  case filter => simp only [I, F, hanswer, hdrop, htrace, h0, h1, Nat.add_zero, List.append_assoc]
  case start => simp only [I, F, S, hanswer, hdrop, htrace, h0, h1, h2, Nat.add_zero, List.append_assoc]
  case opened =>
    simp only [I, F, S, hanswer, hdrop, htrace, h0, h1, h2, Nat.add_zero, List.append_assoc]
    rfl

end Sys2Proof.Machine
end

section
/-!
PROOFS. What a command does to `STATE` (spec/44_lifecycle.md R141), and the calls that one step makes (R142, R143 (e) to
(g)). `Calls` says once which events each command appends; the bounds and the properties of a step's events are read off
it.
-/

namespace Sys2Proof.Machine

variable {c : Config}

/-! ### The state at exit (R141) -/

theorem openResult_eq_ok_iff (a b d : PResult) : openResult a b d = .ok ↔ a = .ok ∧ b = .ok ∧ d = .ok := by
  unfold openResult
  split <;> simp

/-- With a record staged, OPEN ends Open exactly when its three hardware steps, made after the teardown, answer `Ok`. -/
theorem execOpen_opened_iff {s t : State c} (hs : s.staged = true) (h : execOpen s = .next t) :
    t.state = .opened ↔ nthResult (teardownIfOpen s) 0 = .ok ∧ nthResult (teardownIfOpen s) 1 = .ok ∧
      nthResult (teardownIfOpen s) 2 = .ok := by
  obtain ⟨p, hp⟩ := Option.isSome_iff_exists.mp hs
  rw [execOpen_of_staged hp] at h
  rw [openInit_opened_iff (teardownIfOpen_state s) h, openInit_res h, openResult_eq_ok_iff]

theorem execOpenreq_state {p j a b : Nat} {f : BitVec c.flagsW} {s t : State c}
    (h : execOpenreq p j a b f s = .next t) : t.state = s.state := by
  rcases execOpenreq_cases h with ⟨-, rfl⟩ | ⟨-, -, rfl⟩ | ⟨-, -, -, -, rfl⟩ <;> rfl

theorem execPoll_state {s t : State c} (h : execPoll s = .next t) : t.state = s.state := by
  rcases execPoll_cases h with ⟨-, rfl⟩ | ⟨-, rfl⟩
  · rfl
  · exact dropDepth_state s

/-- Settles O34: a clause per command; OPEN's answers are counted from after the teardown. -/
theorem stateFollowsTheTransitionTable : Obligations.StateFollowsTheTransitionTable := by
  refine fun s t => ⟨fun h => ?init, fun p j a b f => execOpenreq_state, fun h hs => ?openDisabled,
    fun h hs hstaged => ?openOpened, execClose_state, execPoll_state⟩
  case init => rw [execInit_cases h]
  case openDisabled =>
    cases hstaged : s.staged with
    | false =>
      obtain ⟨⟩ := (execOpen_of_unstaged hstaged).symm.trans h
      simp [hs]
    | true =>
      rw [execOpen_opened_iff hstaged h, teardownIfOpen_disabled hs]
      exact (and_iff_right rfl).symm
  case openOpened => simpa [nthResult_teardownIfOpen, hs] using execOpen_opened_iff hstaged h

/-! ### The calls of one command (R142) -/

/-- An event that is neither a depth query nor an enable call. -/
def Event.IsPlain (e : Event c) : Prop := e.isRxDepth = false ∧ e.isIrqEn = false

@[simp] theorem Event.isPlain_init (m : BitVec c.modeW) (w : BitVec c.wordW) (a : Bool) (r : PResult) :
    (Event.init m w a r).IsPlain := ⟨rfl, rfl⟩
@[simp] theorem Event.isPlain_deinit (r : PResult) : (Event.deinit r : Event c).IsPlain := ⟨rfl, rfl⟩
@[simp] theorem Event.isPlain_cfgFilter (f : Filter) (r : PResult) : (Event.cfgFilter f r : Event c).IsPlain := ⟨rfl, rfl⟩
@[simp] theorem Event.isPlain_start (r : PResult) : (Event.start r : Event c).IsPlain := ⟨rfl, rfl⟩
@[simp] theorem Event.isPlain_irqDis (k : IrqKind) : (Event.irqDis k : Event c).IsPlain := ⟨rfl, rfl⟩

/-- The events that a command appends: an upper bound on their number, and which of them can be a query or an enable. -/
inductive Calls (s t : State c) : Instr → List (Event c) → Prop
  | init {ev : List (Event c)} (hlen : ev.length ≤ 6) (hplain : ∀ e ∈ ev, e.IsPlain)
      (hdisabled : s.state = .disabled → ev = []) : Calls s t .init ev
  | openreq {p j a b : Nat} {f : Flags} : Calls s t (.openreq p j a b f) []
  | openUnstaged : Calls s t .openCmd []
  | openFailed {ev : List (Event c)} (hstaged : s.staged = true) (hlen : ev.length ≤ 10)
      (hplain : ∀ e ∈ ev, e.IsPlain) : Calls s t .openCmd ev
  | opened {ev : List (Event c)} (hstaged : s.staged = true) (hlen : ev.length ≤ 9) (hplain : ∀ e ∈ ev, e.IsPlain)
      (hstate : t.state = .opened) (hres : t.res = .ok) : Calls s t .openCmd (ev ++ (irqKinds c).map Event.irqEn)
  | close {ev : List (Event c)} (hlen : ev.length ≤ 6) (hplain : ∀ e ∈ ev, e.IsPlain) : Calls s t .close ev
  | pollDisabled : Calls s t .poll []
  | pollOpened (hs : s.state = .opened) (q : QueueId) (n : BitVec c.countW) : Calls s t .poll [.rxDepth q n]

theorem length_irqKinds (hcodes : c.CodesOk) : (irqKinds c).length = 5 := by
  obtain ⟨-, -, -, -, -, horder⟩ := hcodes
  exact horder.length_eq

theorem plain_irqDis (ks : List IrqKind) : ∀ e ∈ ks.map (Event.irqDis (c := c)), e.IsPlain :=
  List.forall_mem_map.mpr fun k _ => Event.isPlain_irqDis k

theorem plain_teardownEvents (s : State c) : ∀ e ∈ teardownEvents s, e.IsPlain :=
  List.forall_mem_append.mpr ⟨plain_irqDis _, List.forall_mem_singleton.mpr (Event.isPlain_deinit _)⟩

theorem length_teardownEvents (hcodes : c.CodesOk) (s : State c) : (teardownEvents s).length = 6 := by
  simp [teardownEvents, length_irqKinds hcodes]

theorem teardownIfOpen_calls (hcodes : c.CodesOk) (s : State c) : ∃ ev, (teardownIfOpen s).ptrace = s.ptrace ++ ev ∧
    ev.length ≤ 6 ∧ (∀ e ∈ ev, e.IsPlain) ∧ (s.state = .disabled → ev = []) := by
  rcases teardownIfOpen_cases s with ⟨-, heq⟩ | ⟨hs, heq⟩ <;> rw [heq]
  · exact ⟨[], (List.append_nil _).symm, Nat.zero_le 6, nofun, fun _ => rfl⟩
  · exact ⟨teardownEvents s, rfl, (length_teardownEvents hcodes s).le, plain_teardownEvents s, by simp [hs]⟩

/-- The hardware steps of OPEN end in a failure, with four plain calls at most, or in Open, with three plain calls and
the five enables. -/
theorem openInit_calls {p : PendingConfig c} {s t : State c} (h : openInit p s = .next t) :
    ∃ ev : List (Event c), (∀ e ∈ ev, e.IsPlain) ∧
      ((t.ptrace = s.ptrace ++ ev ∧ ev.length ≤ 4) ∨
       (t.ptrace = s.ptrace ++ (ev ++ (irqKinds c).map Event.irqEn) ∧ ev.length ≤ 3 ∧ t.state = .opened ∧
         t.res = .ok)) := by
  rcases openInit_cases h with ⟨-, rfl⟩ | ⟨-, -, rfl⟩ | ⟨-, -, -, rfl⟩ | ⟨-, -, -, rfl⟩
  · exact ⟨_, by simp, .inl ⟨rfl, by simp⟩⟩
  · exact ⟨_, by simp, .inl ⟨rfl, by simp⟩⟩
  · exact ⟨_, by simp, .inl ⟨rfl, by simp⟩⟩
  · exact ⟨_, by simp, .inr ⟨rfl, by simp, rfl, rfl⟩⟩

theorem execInit_calls (hcodes : c.CodesOk) {s t : State c} (h : execInit s = .next t) :
    ∃ ev, t.ptrace = s.ptrace ++ ev ∧ Calls s t .init ev := by
  obtain ⟨ev, htrace, hlen, hplain, hdisabled⟩ := teardownIfOpen_calls hcodes s
  rw [execInit_cases h]
  exact ⟨ev, htrace, .init hlen hplain hdisabled⟩

theorem execOpenreq_ptrace {p j a b : Nat} {f : BitVec c.flagsW} {s t : State c}
    (h : execOpenreq p j a b f s = .next t) : t.ptrace = s.ptrace := by
  rcases execOpenreq_cases h with ⟨-, rfl⟩ | ⟨-, -, rfl⟩ | ⟨-, -, -, -, rfl⟩ <;> rfl

theorem execOpen_calls (hcodes : c.CodesOk) {s t : State c} (h : execOpen s = .next t) :
    ∃ ev, t.ptrace = s.ptrace ++ ev ∧ Calls s t .openCmd ev := by
  rcases execOpen_cases h with ⟨-, rfl⟩ | ⟨p, hp, hopen⟩
  · exact ⟨[], (List.append_nil _).symm, .openUnstaged⟩
  · have hstaged : s.staged = true := Option.isSome_iff_exists.mpr ⟨p, hp⟩
    obtain ⟨ev, hdown, hlen, hplain, -⟩ := teardownIfOpen_calls hcodes s
    obtain ⟨ev', hplain', hend⟩ := openInit_calls hopen
    have hplains : ∀ e ∈ ev ++ ev', e.IsPlain := List.forall_mem_append.mpr ⟨hplain, hplain'⟩
    have hlens : (ev ++ ev').length ≤ 6 + ev'.length := by
      rw [List.length_append]
      exact Nat.add_le_add_right hlen _
    rcases hend with ⟨htrace, hlen'⟩ | ⟨htrace, hlen', hstate, hres⟩
    · exact ⟨ev ++ ev', by rw [htrace, hdown, List.append_assoc], .openFailed hstaged (by omega) hplains⟩
    · exact ⟨(ev ++ ev') ++ (irqKinds c).map Event.irqEn, by simp only [htrace, hdown, List.append_assoc],
        .opened hstaged (by omega) hplains hstate hres⟩

theorem execClose_calls (hcodes : c.CodesOk) {s t : State c} (h : execClose s = .next t) :
    ∃ ev, t.ptrace = s.ptrace ++ ev ∧ Calls s t .close ev := by
  rcases execClose_cases h with ⟨-, rfl⟩ | ⟨-, rfl⟩
  · exact ⟨_, rfl, .close (by simp [length_irqKinds hcodes]) (plain_irqDis _)⟩
  · exact ⟨_, rfl, .close (length_teardownEvents hcodes s).le (plain_teardownEvents s)⟩

theorem execPoll_calls {s t : State c} (h : execPoll s = .next t) :
    ∃ ev, t.ptrace = s.ptrace ++ ev ∧ Calls s t .poll ev := by
  rcases execPoll_cases h with ⟨-, rfl⟩ | ⟨hs, rfl⟩
  · exact ⟨[], (List.append_nil _).symm, .pollDisabled⟩
  · exact ⟨_, rfl, .pollOpened hs _ _⟩

/-- A step that takes a word from the port makes the calls of the command it decodes to. -/
theorem step_calls {s t : State} {w : Cmd} {rest : List Cmd} (hport : s.port = w :: rest) (h : step s = .next t) :
    ∃ ev, t.ptrace = s.ptrace ++ ev ∧ Calls { s with port := rest } t (decode w) ev := by
  rcases step_cases h with ⟨hnil, -⟩ | ⟨w', rest', hport', hcmd⟩
  · cases hport.symm.trans hnil
  · obtain ⟨rfl, rfl⟩ := List.cons.inj (hport.symm.trans hport')
    rcases hcmd with ⟨hw, h⟩ | ⟨p, j, a, b, f, hw, h⟩ | ⟨hw, h⟩ | ⟨hw, h⟩ | ⟨hw, h⟩ <;> rw [hw]
    · exact execInit_calls cfg_codesOk h
    · exact ⟨[], (execOpenreq_ptrace h).trans (List.append_nil _).symm, .openreq⟩
    · exact execOpen_calls cfg_codesOk h
    · exact execClose_calls cfg_codesOk h
    · exact execPoll_calls h

/-! ### At most fourteen calls (R142) -/

theorem Calls.length_le (hcodes : c.CodesOk) {s t : State c} {i : Instr} {ev : List (Event c)} (h : Calls s t i ev) :
    ev.length ≤ 14 := by
  cases h with
  | init hlen | openFailed _ hlen | close hlen => omega
  | opened _ hlen =>
    rw [List.length_append, List.length_map, length_irqKinds hcodes]
    omega
  | openreq | openUnstaged | pollDisabled | pollOpened => simp

/-- An open block that is given OPEN again and whose peripheral answers `Ok` each time: R142's longest step. -/
def reopening : State where
  state := .opened
  pcfg := some { timing := pack ⟨⟨3, 1, 10, 3⟩, by decide⟩, mode := 0, art := true, filter := buildFilter }
  ien := irqAll
  res := .ok
  count := 0
  ptrace := [.init 0 (pack ⟨⟨3, 1, 10, 3⟩, by decide⟩) true .ok, .cfgFilter buildFilter .ok, .start .ok] ++
    irqKinds.map Event.irqEn
  unitOut := .nothing
  port := [assembleN 2]
  answers := [.ok, .ok, .ok, .ok]
  depths := []
  draws := 0

theorem inv_reopening : Inv reopening := by decide

/-- The six calls of the teardown, the three hardware steps and the five enables. -/
theorem step_reopening : ∃ t, step reopening = .next t ∧ t.ptrace.length = reopening.ptrace.length + 14 :=
  ⟨_, rfl, rfl⟩

/-- Settles O35: the calls of each command are bounded, and OPEN from Open can make fourteen. -/
theorem aStepMakesAtMostFourteenCalls : Obligations.AStepMakesAtMostFourteenCalls := by
  refine ⟨fun s t h => ?bound, ?reached⟩
  case bound =>
    cases hport : s.port with
    | nil =>
      obtain ⟨⟩ := (step_of_port_nil hport).symm.trans h
      exact ⟨[], (List.append_nil _).symm, Nat.zero_le 14⟩
    | cons w rest =>
      obtain ⟨ev, htrace, hcalls⟩ := step_calls hport h
      exact ⟨ev, htrace, hcalls.length_le cfg_codesOk⟩
  case reached =>
    obtain ⟨t, hstep, hlen⟩ := step_reopening
    exact ⟨reopening, t, inv_reopening, hstep, hlen⟩

/-! ### Queries and enables (R143 (e) to (g)) -/

/-- Only POLL queries, and only while Open (R143 (e)). -/
theorem Calls.opened_of_rxDepth {s t : State c} {i : Instr} {ev : List (Event c)} (h : Calls s t i ev) {e : Event c}
    (he : e ∈ ev) (hquery : e.isRxDepth = true) : s.state = .opened := by
  cases h with
  | pollOpened hs => exact hs
  | init _ hplain | openFailed _ _ hplain | close _ hplain => simp [(hplain e he).1] at hquery
  | opened _ _ hplain =>
    rcases List.mem_append.mp he with he | he
    · simp [(hplain e he).1] at hquery
    · obtain ⟨k, -, rfl⟩ := List.mem_map.mp he
      cases hquery
  | openreq | openUnstaged | pollDisabled => cases he

/-- Only an OPEN that ends with `Ok` in Open enables, all five kinds and at its end (R143 (g)). -/
theorem Calls.enables_last {s t : State c} {i : Instr} {ev : List (Event c)} (h : Calls s t i ev) {e : Event c}
    (he : e ∈ ev) (henable : e.isIrqEn = true) : i = .openCmd ∧ t.state = .opened ∧ t.res = .ok ∧
      ∃ ev', ev = ev' ++ (irqKinds c).map Event.irqEn ∧ ∀ e' ∈ ev', e'.isIrqEn = false := by
  cases h with
  | opened _ _ hplain hstate hres => exact ⟨rfl, hstate, hres, _, rfl, fun e' he' => (hplain e' he').2⟩
  | init _ hplain | openFailed _ _ hplain | close _ hplain => simp [(hplain e he).2] at henable
  | pollOpened =>
    obtain ⟨⟩ := List.mem_singleton.mp he
    cases henable
  | openreq | openUnstaged | pollDisabled => cases he

/-- R143 (f): the commands that make no call. -/
theorem Calls.eq_nil_of_openreq {s t : State c} {p j a b : Nat} {f : Flags} {ev : List (Event c)}
    (h : Calls s t (.openreq p j a b f) ev) : ev = [] := by
  cases h
  rfl

theorem Calls.eq_nil_of_unstaged {s t : State c} {ev : List (Event c)} (h : Calls s t .openCmd ev)
    (hs : s.staged = false) : ev = [] := by
  cases h with
  | openUnstaged => rfl
  | openFailed hstaged | opened hstaged => simp [hs] at hstaged

theorem Calls.eq_nil_of_init_disabled {s t : State c} {ev : List (Event c)} (h : Calls s t .init ev)
    (hs : s.state = .disabled) : ev = [] := by
  cases h with
  | init _ _ hdisabled => exact hdisabled hs

theorem Calls.eq_nil_of_poll_disabled {s t : State c} {ev : List (Event c)} (h : Calls s t .poll ev)
    (hs : s.state = .disabled) : ev = [] := by
  cases h with
  | pollDisabled => rfl
  | pollOpened hopened => simp [hs] at hopened

end Sys2Proof.Machine
end

section
/-!
PROOFS. What the monitor of log 15 says of a trace it allows (spec/44_lifecycle.md R143 (a) to (d)): which event leads
into each phase, and which phases are kept while an event is missing.
-/

namespace Sys2Proof.Machine

variable {c : Config}

namespace Phase

/-! ### Reading a trace -/

theorem run_append_cons {p q : Phase} {pre post : List (Event c)} {e : Event c}
    (h : p.run (pre ++ e :: post) = some q) :
    ∃ p' q', p.run pre = some p' ∧ p'.next e = some q' ∧ q'.run post = some q := by
  rw [run_append] at h
  obtain ⟨p', hpre, hrest⟩ := Option.bind_eq_some_iff.mp h
  obtain ⟨q', hnext, hpost⟩ := Option.bind_eq_some_iff.mp hrest
  exact ⟨p', q', hpre, hnext, hpost⟩

/-- What every event of a run keeps, the run keeps. -/
theorem run_keeps {P : Phase → Prop} {es : List (Event c)}
    (hstep : ∀ e ∈ es, ∀ p q : Phase, P p → p.next e = some q → P q) {p q : Phase} (hp : P p)
    (h : p.run es = some q) : P q := by
  induction es generalizing p with
  | nil =>
    obtain ⟨⟩ := h
    exact hp
  | cons e es ih =>
    obtain ⟨p', hnext, hrun⟩ := Option.bind_eq_some_iff.mp h
    obtain ⟨he, hes⟩ := List.forall_mem_cons.mp hstep
    exact ih hes (he p p' hp hnext) hrun

/-- A run that ends elsewhere than it began has a last event. -/
theorem exists_last_of_run {p q : Phase} {es : List (Event c)} (h : p.run es = some q) (hne : q ≠ p) :
    ∃ (es' : List (Event c)) (e : Event c) (p' : Phase), es = es' ++ [e] ∧ p'.next e = some q := by
  rcases List.eq_nil_or_concat es with rfl | ⟨es', e, rfl⟩
  · obtain ⟨⟩ := h
    exact absurd rfl hne
  · rw [List.concat_eq_append] at h ⊢
    obtain ⟨p', q', -, hnext, hnil⟩ := run_append_cons h
    obtain ⟨⟩ := hnil
    exact ⟨es', e, p', rfl, hnext⟩

/-! ### Where an event may stand, and what leads into a phase -/

theorem eq_down_of_next_init {p q : Phase} {m : BitVec c.modeW} {w : BitVec c.wordW} {a : Bool} {r : PResult}
    (h : p.next (.init m w a r) = some q) : p = .down := (Option.ite_none_right_eq_some.mp h).1

theorem eq_inited_of_next_cfgFilter {p q : Phase} {f : Filter} {r : PResult}
    (h : p.next (.cfgFilter f r : Event c) = some q) : p = .inited := (Option.ite_none_right_eq_some.mp h).1

theorem eq_filtered_of_next_start {p q : Phase} {r : PResult} (h : p.next (.start r : Event c) = some q) :
    p = .filtered := (Option.ite_none_right_eq_some.mp h).1

theorem next_deinit {p q : Phase} {r : PResult} (h : p.next (.deinit r : Event c) = some q) :
    p ≠ .down ∧ q = .down := by
  obtain ⟨rfl | rfl, ⟨⟩⟩ := Option.ite_none_right_eq_some.mp h
  · exact ⟨nofun, rfl⟩
  · exact ⟨nofun, rfl⟩

/-- While nothing is initialised only a `P_INIT` changes that. -/
theorem eq_down_of_next_down {e : Event c} {q : Phase} (he : e.isInit = false) (h : Phase.next .down e = some q) :
    q = .down := by
  cases e with
  | init => cases he
  | irqDis => exact (Option.some.inj h).symm
  | deinit | cfgFilter | start | rxDepth | irqEn => simp [next] at h

/-- The events that can lead from `p` into a phase, where R143 names them. -/
def EnteredBy (p : Phase) (e : Event c) : Phase → Prop
  | .down => p = .down ∨ e.isDeinit = true
  | .inited => ∃ m w a, e = .init m w a .ok
  | .filtered => ∃ f, e = .cfgFilter f .ok
  | .rollingBack | .enabling _ | .up | .disabling _ => True

theorem enteredBy_of_next {p q : Phase} {e : Event c} (h : p.next e = some q) : EnteredBy p e q := by
  cases e with
  | init m w a r =>
    obtain ⟨rfl, ⟨⟩⟩ := Option.ite_none_right_eq_some.mp h
    cases r
    · exact ⟨m, w, a, rfl⟩
    · exact .inl rfl
  | cfgFilter f r =>
    obtain ⟨-, ⟨⟩⟩ := Option.ite_none_right_eq_some.mp h
    cases r
    · exact ⟨f, rfl⟩
    · trivial
  | start r =>
    obtain ⟨-, ⟨⟩⟩ := Option.ite_none_right_eq_some.mp h
    cases r <;> trivial
  | deinit =>
    obtain ⟨-, ⟨⟩⟩ := Option.ite_none_right_eq_some.mp h
    exact .inr rfl
  | rxDepth =>
    obtain ⟨-, ⟨⟩⟩ := Option.ite_none_right_eq_some.mp h
    trivial
  | irqEn k =>
    simp only [next] at h
    split at h
    · obtain ⟨-, ⟨⟩⟩ := Option.ite_none_right_eq_some.mp h
      split <;> trivial
    · cases h
  | irqDis k =>
    simp only [next] at h
    split at h
    · obtain ⟨⟩ := h
      exact .inl rfl
    · obtain ⟨-, ⟨⟩⟩ := Option.ite_none_right_eq_some.mp h
      trivial
    · obtain ⟨-, ⟨⟩⟩ := Option.ite_none_right_eq_some.mp h
      trivial
    · cases h

/-! ### The properties of an allowed trace (R143) -/

section
variable {p q : Phase} {pre mid post : List (Event c)}

/-- R143 (a): the monitor is down after a `P_DEINIT` and allows none there. -/
theorem exists_init_between_deinits {r r' : PResult}
    (h : p.run (pre ++ .deinit r :: (mid ++ .deinit r' :: post)) = some q) : ∃ e ∈ mid, e.isInit = true := by
  obtain ⟨_, q₁, -, hfirst, hrest⟩ := run_append_cons h
  obtain ⟨p₂, _, hmid, hsecond, -⟩ := run_append_cons hrest
  by_contra hnone
  have hmidInit : ∀ e ∈ mid, e.isInit = false := by simpa using hnone
  have hdown : p₂ = .down := run_keeps (P := (· = .down))
    (fun e he _ _ hp hnext => eq_down_of_next_down (hmidInit e he) (hp ▸ hnext)) (next_deinit hfirst).2 hmid
  exact (next_deinit hsecond).1 hdown

/-- R143 (b): after a successful `P_INIT` only a `P_DEINIT` leads back down, where a `P_INIT` may stand. -/
theorem exists_deinit_between_inits {m m' : BitVec c.modeW} {w w' : BitVec c.wordW} {a a' : Bool} {r : PResult}
    (h : p.run (pre ++ .init m w a .ok :: (mid ++ .init m' w' a' r :: post)) = some q) :
    ∃ e ∈ mid, e.isDeinit = true := by
  obtain ⟨_, q₁, -, hfirst, hrest⟩ := run_append_cons h
  obtain ⟨p₂, _, hmid, hsecond, -⟩ := run_append_cons hrest
  by_contra hnone
  have hmidDeinit : ∀ e ∈ mid, e.isDeinit = false := by simpa using hnone
  have hup : q₁ ≠ .down := by
    obtain ⟨-, ⟨⟩⟩ := Option.ite_none_right_eq_some.mp hfirst
    nofun
  refine run_keeps (P := (· ≠ .down)) (fun e he p q hp hnext hq => ?_) hup hmid (eq_down_of_next_init hsecond)
  subst hq
  rcases enteredBy_of_next hnext with hdown | hdeinit
  · exact hp hdown
  · simp [hmidDeinit e he] at hdeinit

/-- R143 (c): the phase in which `P_CFGFILTER` may stand is entered by a successful `P_INIT` only. -/
theorem init_before_cfgFilter {f : Filter} {r : PResult}
    (h : Phase.run .down (pre ++ .cfgFilter f r :: post) = some q) : ∃ pre' m w a, pre = pre' ++ [.init m w a .ok] := by
  obtain ⟨p₁, _, hpre, hnext, -⟩ := run_append_cons h
  obtain rfl := eq_inited_of_next_cfgFilter hnext
  obtain ⟨pre', e, _, rfl, hlast⟩ := exists_last_of_run hpre nofun
  obtain ⟨m, w, a, rfl⟩ := enteredBy_of_next hlast
  exact ⟨pre', m, w, a, rfl⟩

/-- R143 (d): the phase in which `P_START` may stand is entered by a successful `P_CFGFILTER` only. -/
theorem cfgFilter_before_start {r : PResult} (h : Phase.run .down (pre ++ .start r :: post) = some q) :
    ∃ pre' f, pre = pre' ++ [.cfgFilter f .ok] := by
  obtain ⟨p₁, _, hpre, hnext, -⟩ := run_append_cons h
  obtain rfl := eq_filtered_of_next_start hnext
  obtain ⟨pre', e, _, rfl, hlast⟩ := exists_last_of_run hpre nofun
  obtain ⟨f, rfl⟩ := enteredBy_of_next hlast
  exact ⟨pre', f, rfl⟩

end

end Phase

/-- Settles O36: (a) to (d) from the monitor's phases, (e) to (g) from the calls of the step's command. -/
theorem tracePropertiesHold : Obligations.TracePropertiesHold := by
  refine ⟨fun s hs => ?trace, fun s t w rest ev hport h htrace => ?step⟩
  case trace =>
    refine ⟨fun _ _ _ _ _ htr => ?a, fun _ _ _ _ _ _ _ _ _ _ htr => ?b, fun _ _ _ _ htr => ?c, fun _ _ _ htr => ?d,
      fun _ _ _ htr => ?mask⟩ <;> rw [ProtocolInv, htr] at hs
    case a => exact Phase.exists_init_between_deinits hs
    case b => exact Phase.exists_deinit_between_inits hs
    case c => exact Phase.init_before_cfgFilter hs
    case d => exact Phase.cfgFilter_before_start hs
    case mask => exact traceMask_eq_irqNone_of_hardwareStep cfg_codesOk hs rfl
  case step =>
    obtain ⟨ev', htrace', hcalls⟩ := step_calls hport h
    obtain rfl : ev' = ev := List.append_cancel_left (htrace'.symm.trans htrace)
    refine ⟨fun _ => hcalls.opened_of_rxDepth, fun ⟨_, _, _, _, _, hw⟩ => ?openreq, fun hw => ?unstaged,
      fun hw => ?init, fun hw => ?poll, fun _ => hcalls.enables_last⟩
    case openreq => exact (hw ▸ hcalls).eq_nil_of_openreq
    case unstaged => exact (hw ▸ hcalls).eq_nil_of_unstaged
    case init => exact (hw ▸ hcalls).eq_nil_of_init_disabled
    case poll => exact (hw ▸ hcalls).eq_nil_of_poll_disabled

end Sys2Proof.Machine
end

section
/-!
PROOFS. The errors (spec/60_exceptions.md R151 to R156): which command ends with which result and in which state, the
retry after a failed OPEN, and CLOSE's way to Disabled.
-/

namespace Sys2Proof.Machine

variable {c : Config}

/-! ### The error table (R151) -/

/-- R151's table: a command that took the block from `s` to `t` and left the result may have done so by this row, with the
cause and the state that the row names. -/
inductive ErrorRow (s t : State) : Instr → Result → Prop
  | ok {i : Instr} (hmay : .ok ∈ mayRaise i) : ErrorRow s t i .ok
  | initFailed {tr : List Event} {m : Mode} {w : Word} {art : Bool} (hstate : t.state = .disabled)
      (hien : t.ien = irqNone) (htrace : t.ptrace = tr ++ [.init m w art .fail]) :
      ErrorRow s t .openCmd .hardwareInitFailed
  | startFailed {tr : List Event} {r : PResult} (hstate : t.state = .disabled) (hien : t.ien = irqNone)
      (htrace : t.ptrace = tr ++ [.start .fail, .deinit r]) : ErrorRow s t .openCmd .hardwareInitFailed
  | filterFailed {tr : List Event} {f : Filter} {r : PResult} (hstate : t.state = .disabled) (hien : t.ien = irqNone)
      (htrace : t.ptrace = tr ++ [.cfgFilter f .fail, .deinit r]) : ErrorRow s t .openCmd .filterConfigFailed
  | deinitFailed {tr : List Event} (hs : s.state = .opened) (hstate : t.state = .disabled) (hien : t.ien = irqNone)
      (htrace : t.ptrace = tr ++ [.deinit .fail]) : ErrorRow s t .close .deinitFailed
  | notConfigured (hs : s.staged = false) (ht : t = { s with res := .notConfigured }) :
      ErrorRow s t .openCmd .notConfigured
  | unsupportedMode {p j a b : Nat} {f : Flags} (hf : f &&& ~~~supportedMask ≠ 0)
      (ht : t = { s with res := .unsupportedMode }) : ErrorRow s t (.openreq p j a b f) .unsupportedMode
  | outOfRange {p j a b : Nat} {f : Flags} (hv : validate ⟨p, j, a, b⟩ = false)
      (ht : t = { s with res := .configurationOutOfRange }) :
      ErrorRow s t (.openreq p j a b f) .configurationOutOfRange

theorem ErrorRow.mem_mayRaise {s t : State} {i : Instr} {r : Result} (h : ErrorRow s t i r) : r ∈ mayRaise i := by
  cases h with
  | ok hmay => exact hmay
  | initFailed | startFailed | filterFailed | deinitFailed | notConfigured | unsupportedMode | outOfRange =>
    simp [mayRaise]

theorem execOpenreq_errorRow {p j a b : Nat} {f : Flags} {s t : State} (h : execOpenreq p j a b f s = .next t) :
    ErrorRow s t (.openreq p j a b f) t.res := by
  rcases execOpenreq_cases h with ⟨hv, rfl⟩ | ⟨-, hd, rfl⟩ | ⟨-, -, -, -, rfl⟩
  · exact .outOfRange hv rfl
  · exact .unsupportedMode ((decodeFlags_eq_unsupported_iff f).mp hd) rfl
  · exact .ok (by simp [mayRaise])

/-- The interrupts are off when OPEN's hardware steps begin, from every state that meets R36's invariant. -/
theorem teardownIfOpen_ien (hcodes : c.CodesOk) {s : State c} (hs : IrqInv s) : (teardownIfOpen s).ien = irqNone := by
  have hrest := (irqInv_iff _).mp ((effect_teardownIfOpen hcodes s).irqInv hs)
  rwa [teardownIfOpen_state] at hrest

/-- A failed hardware step leaves `STATE` and `IEN` as the teardown left them. -/
theorem execOpen_errorRow {s t : State} (hs : IrqInv s) (h : execOpen s = .next t) :
    ErrorRow s t .openCmd t.res := by
  rcases execOpen_cases h with ⟨hnone, rfl⟩ | ⟨p, -, hopen⟩
  · exact .notConfigured (by rw [State.staged, hnone]; rfl) rfl
  · have hstate := teardownIfOpen_state s
    have hien := teardownIfOpen_ien cfg_codesOk hs
    rcases openInit_cases hopen with ⟨-, rfl⟩ | ⟨-, -, rfl⟩ | ⟨-, -, -, rfl⟩ | ⟨-, -, -, rfl⟩
    · exact .initFailed hstate hien rfl
    · exact .filterFailed hstate hien (List.append_assoc _ [_] _).symm
    · exact .startFailed hstate hien (List.append_assoc _ [_, _] _).symm
    · exact .ok (by simp [mayRaise])

theorem execClose_errorRow {s t : State} (h : execClose s = .next t) : ErrorRow s t .close t.res := by
  rcases execClose_cases h with ⟨-, rfl⟩ | ⟨hs, ht⟩
  · exact .ok (by simp [mayRaise])
  · have hres : t.res = if nthResult s 0 = .fail then .deinitFailed else .ok := by rw [ht]
    rw [hres]
    split_ifs with hfail
    · subst ht
      exact .deinitFailed hs rfl rfl (by rw [teardownEvents, hfail, List.append_assoc])
    · exact .ok (by simp [mayRaise])

theorem exec_errorRow {i : Instr} {s t : State} (hi : i.isUnit = false) (hs : IrqInv s) (h : exec i s = .next t) :
    ErrorRow s t i t.res := by
  cases i with
  | init =>
    rw [execInit_cases h]
    exact .ok (by simp [mayRaise])
  | openreq => exact execOpenreq_errorRow h
  | openCmd => exact execOpen_errorRow hs h
  | close => exact execClose_errorRow h
  | poll =>
    rcases execPoll_cases h with ⟨-, rfl⟩ | ⟨-, rfl⟩ <;> exact .ok (by simp [mayRaise])
  | reserved5 | reserved6 | reserved7 => cases h
  | validate | pack | unpack | decode | buildFilter | irqEnable | irqDisable | teardown => cases hi

/-- Settles O43: each command's result stands in a row of the table, and each clause reads the rows of its result. -/
theorem resultsFollowTheErrorTable : Obligations.ResultsFollowTheErrorTable := by
  refine ⟨⟨rfl, rfl, rfl, rfl, rfl, rfl, rfl⟩, fun i s t hi hs h => ?_⟩
  have hrow := exec_errorRow hi hs h
  refine ⟨hrow.mem_mayRaise, fun hres => ?hardwareInit, fun hres => ?filterConfig, fun hres => ?deinit,
    fun hres => ?refusedFrame, fun hres => ?notConfigured, fun hres => ?unsupported, fun hres => ?outOfRange⟩
  case refusedFrame =>
    rcases hres with hres | hres | hres <;> rw [hres] at hrow ⊢
    · cases hrow with
      | notConfigured _ ht => exact ht
    · cases hrow with
      | unsupportedMode _ ht => exact ht
    · cases hrow with
      | outOfRange _ ht => exact ht
  all_goals rw [hres] at hrow
  case hardwareInit =>
    cases hrow with
    | initFailed hstate hien htrace => exact ⟨hstate, hien, .inl ⟨_, _, _, _, htrace⟩⟩
    | startFailed hstate hien htrace => exact ⟨hstate, hien, .inr ⟨_, _, htrace⟩⟩
  case filterConfig =>
    cases hrow with
    | filterFailed hstate hien htrace => exact ⟨hstate, hien, _, _, _, htrace⟩
  case deinit =>
    cases hrow with
    | deinitFailed hopen hstate hien htrace => exact ⟨hopen, hstate, hien, _, htrace⟩
  case notConfigured =>
    cases hrow with
    | notConfigured hstaged => exact ⟨rfl, hstaged⟩
  case unsupported =>
    cases hrow with
    | unsupportedMode hf => exact ⟨_, _, _, _, _, rfl, supportedMask_cfg ▸ hf⟩
  case outOfRange =>
    cases hrow with
    | outOfRange hv => exact ⟨_, _, _, _, _, rfl, hv⟩

/-! ### The retry after a failed OPEN (R156) -/

/-- A staged OPEN that does not answer `Ok` ends Disabled. -/
theorem execOpen_disabled_of_failed {s t : State c} {p : PendingConfig c} (hp : s.pcfg = some p)
    (h : execOpen s = .next t) (hres : t.res ≠ .ok) : t.state = .disabled := by
  rw [execOpen_of_staged hp] at h
  exact (state_cases t).resolve_right (mt (openInit_opened_iff (teardownIfOpen_state s) h).mp hres)

/-- From Disabled, OPEN whose three hardware steps answer `Ok` opens with the staged record. -/
theorem execOpen_of_allOk {s : State c} {p : PendingConfig c} (hs : s.state = .disabled) (hp : s.pcfg = some p)
    (h0 : nthResult s 0 = .ok) (h1 : nthResult s 1 = .ok) (h2 : nthResult s 2 = .ok) :
    execOpen s = .next { dropResults 3 s with
      state := .opened, ien := irqAll, res := .ok,
      ptrace := s.ptrace ++ ([.init p.mode p.timing p.art .ok, .cfgFilter p.filter .ok, .start .ok] ++
        (irqKinds c).map Event.irqEn) } := by
  rw [execOpen_of_staged hp, teardownIfOpen_disabled hs, openInit_eq_next]
  simp only [openInitEnd, h0, h1, h2]

/-- Settles O48: OPEN writes no record and fails into Disabled, from where three `Ok` answers open it. -/
theorem failedOpenCanBeRetried : Obligations.FailedOpenCanBeRetried := by
  intro s t p _ hp h hres
  obtain ⟨hpcfg, -⟩ := frame_of_execOpen h
  have hstaged : t.pcfg = some p := hpcfg.trans hp
  have hdisabled : t.state = .disabled := execOpen_disabled_of_failed hp h hres
  exact ⟨hstaged, hdisabled, _,
    execOpen_of_allOk (s := { t with answers := [.ok, .ok, .ok] }) hdisabled hstaged rfl rfl rfl, rfl, rfl, rfl⟩

/-! ### CLOSE always ends Disabled (R155) -/

/-- Settles O32: CLOSE's two paths both end Disabled with the interrupts off. -/
theorem closeAlwaysEndsDisabled : Obligations.CloseAlwaysEndsDisabled := by
  intro s
  rcases state_cases s with hs | hs
  · exact ⟨_, execClose_of_disabled hs, hs, rfl, rfl, rfl⟩
  · exact ⟨_, execClose_of_opened hs, rfl, rfl, rfl, rfl⟩

end Sys2Proof.Machine
end

section
/-!
PROOFS. What hardware reset leaves, and the first commands after it (spec/70_reset_and_hazards.md R171, R174).
-/

namespace Sys2Proof.Machine

variable {c : Config}

/-- Settles O1: every clause reads a field of the reset record, or its bit view. -/
theorem resetRegisterValues : Obligations.ResetRegisterValues :=
  ⟨rfl, rfl, rfl, rfl, rfl, rfl, rfl, rfl⟩

/-- INIT writes nothing new in a Disabled interface with nothing staged and `RES` 0. -/
theorem execInit_eq_self {s : State c} (hs : s.state = .disabled) (hpcfg : s.pcfg = none) (hres : s.res = .ok) :
    execInit s = .next s := by
  rw [execInit_eq, teardownIfOpen_disabled hs, ← hs, ← hpcfg, ← hres]

/-- Settles O2: reset is Disabled and unstaged with `RES` 0, so INIT changes nothing and OPEN finds no record. -/
theorem initAfterResetIsRedundant : Obligations.InitAfterResetIsRedundant :=
  ⟨execInit_eq_self rfl rfl rfl, execOpen_of_unstaged (s := State.reset) rfl⟩

/-- Settles O41: the reset state of every record is good, so the decided record's is. -/
theorem resetMeetsTheInvariant : Obligations.ResetMeetsTheInvariant := inv_resetWith cfg

end Sys2Proof.Machine
end
